-- ==== Sys2Proof/Word.lean ====
section
/-! DEFINITION. Word.lean: the widths of the machine's words (01 R21, 06 R117) and their plainest arithmetic. -/

namespace Sys2Proof

/-- A byte of memory. -/
abbrev Byte := BitVec 8

/-- A halfword of the code stream (06 R103). -/
abbrev Half := BitVec 16

/-- One lane of a vector, a predicate, an FP32 word. -/
abbrev Lane := BitVec 32

/-- A scalar register, an accumulator element. -/
abbrev Word := BitVec 64

/-- A vector register or a bypass latch (06 R117, 11 R236). -/
abbrev Vec := BitVec 1024

/-- A bundle (06 R106). -/
abbrev BundleBits := BitVec 384

end Sys2Proof
end

