-- ==== Sys2Proof/Syntax.lean ====
section
/-! DEFINITION. Syntax.lean: the operands and the ONE inductive of instructions and steps, one constructor per row of
spec/opcode_table.json. Register numbers keep the widths of their fields (06 R117); codes are inductive types. -/

namespace Sys2Proof

/-- Which slot of a pair holds the instruction: SA or SB, VA or VB (06 R106). -/
inductive Side where
  | a | b
  deriving DecidableEq, Repr

/-- A scalar source field (06 R109): a register with its last-use mark, or a latch. -/
inductive SSrc where
  | reg (n : BitVec 6) (lu : Bool)
  | latch (k : BitVec 3)
  deriving DecidableEq, Repr

/-- A vector source field (06 R109). -/
inductive VSrc where
  | reg (n : BitVec 11) (lu : Bool)
  | latch (k : BitVec 3)
  deriving DecidableEq, Repr

/-- Element types (06 R122). -/
inductive ElemType where
  | untyped | i8 | i16 | i32 | i64 | n8 | n16 | n32 | n64
  | fp32 | bf16 | fp16 | e4m3 | e5m2 | e8m0 | t8 | t6 | mom8
  deriving DecidableEq, Repr

/-- Rounding modes (04 R68, 06 R123). -/
inductive RMode where
  | rne | rtz | rup | rdn
  deriving DecidableEq, Repr

/-- Width of SEXT and ZEXT (08 R170). -/
inductive ExtWidth where
  | w8 | w16 | w32
  deriving DecidableEq, Repr

/-- Conditions of CMP (08 R171). -/
inductive SCond where
  | eq | ne | lt | ge | ltn | gen | tst
  deriving DecidableEq, Repr

/-- Conditions of VCMP (09 R198). -/
inductive VCond where
  | eq | ne | lt | le | gt | ge | un
  deriving DecidableEq, Repr

/-- Forms of MYXY (08 R173). -/
inductive XYForm where
  | abs | rel | log | die
  deriving DecidableEq, Repr

/-- The integer variants of VIADD to VIMAC (09 R195). -/
inductive IVar where
  | wrap | sat | hi
  deriving DecidableEq, Repr

/-- Scope codes of PHASE and EVSIG (06 R115, R116): a sub-rectangle carries its log2 width and height. -/
inductive Scope where
  | core | cluster | die | sub (lw lh : BitVec 3) | launch | package
  deriving DecidableEq, Repr

/-- Access classes of FENCE (06 R115, 15 R295). -/
inductive AccClass where
  | ls | mxop | copy | sleeve | gather | acc | nmv
  deriving DecidableEq, Repr

/-- Slice modes (11 R238, 06 R116). -/
inductive SliceMode where
  | cache | scratch | fifo
  deriving DecidableEq, Repr

/-- Scalar slot: destination and write-back suppress (06 R110). -/
structure SHead where
  side : Side
  d : BitVec 6
  wbs : Bool
  deriving DecidableEq, Repr

/-- Two sources. -/
structure SOp2 extends SHead where
  a : SSrc
  b : SSrc
  deriving DecidableEq, Repr

/-- One source. -/
structure SOp1 extends SHead where
  a : SSrc
  deriving DecidableEq, Repr

/-- One source and an 18-bit immediate. -/
structure SOpI extends SHead where
  a : SSrc
  imm : BitVec 18
  deriving DecidableEq, Repr

/-- The amount of a shift (08 R168). -/
inductive ShAmt where
  | imm (n : BitVec 6)
  | reg (b : SSrc)
  deriving DecidableEq, Repr

/-- A scalar shift. -/
structure SShift extends SHead where
  a : SSrc
  amt : ShAmt
  deriving DecidableEq, Repr

/-- Vector slot: lane predicate, destination, write-back suppress (06 R111). -/
structure VHead where
  side : Side
  p : BitVec 4
  d : BitVec 11
  wbs : Bool
  deriving DecidableEq, Repr

/-- One vector source with a type. -/
structure VOp1 extends VHead where
  ty : ElemType
  a : VSrc
  deriving DecidableEq, Repr

/-- Two vector sources with a type. -/
structure VOp2 extends VHead where
  ty : ElemType
  a : VSrc
  b : VSrc
  deriving DecidableEq, Repr

/-- Two vector sources with a type and a rounding mode. -/
structure VOpR extends VHead where
  ty : ElemType
  m : RMode
  a : VSrc
  b : VSrc
  deriving DecidableEq, Repr

/-- The amount of a vector shift (09 R196). -/
inductive VShAmt where
  | vec (b : VSrc)
  | scal (b : SSrc)
  deriving DecidableEq, Repr

/-- A vector source, a scalar source, a type. -/
structure VOpS extends VHead where
  ty : ElemType
  a : VSrc
  b : SSrc
  deriving DecidableEq, Repr

/-- A reduction: a source under an input mask (09 R203). -/
structure VRed extends VHead where
  ty : ElemType
  m : RMode
  nan : Bool
  a : VSrc
  pm : BitVec 4
  deriving DecidableEq, Repr

/-- Predicate to predicate (09 R205). -/
structure POp2 where
  side : Side
  p : BitVec 4
  d : BitVec 4
  wbs : Bool
  a : BitVec 4
  b : BitVec 4
  deriving DecidableEq, Repr

/-- Operands of MMA and MMAL (06 R114). -/
structure MmaOp where
  as : BitVec 6
  bs : BitVec 6
  acb : BitVec 7
  ty : ElemType
  ta : Bool
  tb : Bool
  ss : Option (BitVec 6)
  kn : BitVec 6
  deriving DecidableEq, Repr

/-- Forms of ARD and AWR (10 R228): converted, or the raw words. -/
inductive RowForm where
  | conv (ty : ElemType) | rawlo | rawhi | head
  deriving DecidableEq, Repr

/-- Register operand that is scalar or vector (06 R115, VK). -/
inductive SVReg where
  | s (n : BitVec 6)
  | v (n : BitVec 11)
  deriving DecidableEq, Repr

/-- Operands of LD, ST and the scalar GLD and GST: width code and sign extension (06 R115). -/
structure MemS where
  r : BitVec 6
  base : BitVec 6
  sz : BitVec 2
  sx : Bool
  strong : Bool
  off : BitVec 20
  deriving DecidableEq, Repr

/-- Operands of VLD and VST. -/
structure MemV where
  v : BitVec 11
  base : BitVec 6
  strong : Bool
  p : BitVec 4
  off : BitVec 14
  deriving DecidableEq, Repr

/-- Operands of VLDS and VSTS. -/
structure MemVS where
  v : BitVec 11
  base : BitVec 6
  strong : Bool
  p : BitVec 4
  stride : BitVec 6
  off : BitVec 14
  deriving DecidableEq, Repr

/-- Operands of GLD and GST: the scalar form carries a size. -/
structure MemG where
  r : SVReg
  base : BitVec 6
  strong : Bool
  sz : BitVec 2
  sx : Bool
  off : BitVec 20
  deriving DecidableEq, Repr

/-- Operands of an atomic (06 R115). -/
structure AtOp where
  sd : BitVec 6
  base : BitVec 6
  sv : BitVec 6
  sc : BitVec 6
  w64 : Bool
  sgn : Bool
  deriving DecidableEq, Repr

/-- An engine with a translation cache (11 R247). -/
inductive Engine where
  | core (c : Nat) | copy (cluster : Nat) | rbd (k : Nat)
  deriving DecidableEq, Repr

/-- A peer's answer to one of our contributions (22 R406, R407): accepted, RETRY, or refused with a detail word. -/
inductive GaccAnswer where
  | accepted | retry | refused (detail : Nat)
  deriving DecidableEq, Repr

/-- A contribution at the bucket engine (22 R407, 25 R448): a request of this package, one of a peer package with the tag number, physical
address and slot it carries, or a peer's reply to one of ours, with the handle of the non-finite event whose notice travels with it. -/
inductive GaccMsg where
  | own (id : Nat)
  | peer (pkg launch core tag pa slot : Nat) (data : Vec)
  | reply (id : Nat) (ans : GaccAnswer) (nf : Option Nat)
  deriving DecidableEq, Repr

/-- The notice of a non-finite event (22 R411), with the bucket's handle and above it one more than the number of the launch that it is for:
of a bucket of this package, or of a peer's, whose reply has gone before (25 R448). -/
inductive NfMsg where
  | own (handle : Nat)
  | peer (handle : Nat)
  deriving DecidableEq, Repr

/-- The handle of a notice, with its launch above it. -/
def NfMsg.handle : NfMsg → Nat
  | .own h | .peer h => h

/-- A push at its destination (22 R420, 25 R448): one of this package, the peer's report that ours has landed or the reason (11 R248) for which it has
not, or one of a peer package, with its identity. -/
inductive PushMsg where
  | own (id : Nat)
  | reply (id : Nat) (fault : Option Nat)
  | peer (pkg ident rtag : Nat) (va : Word) (data : List Byte) (rcnt radd : Word)
  deriving DecidableEq, Repr

/-- Where an error is found (20 R377, R458). -/
inductive ErrSite where
  | dram (pa : Nat) | slice (cluster addr : Nat) | dirty (pa : Nat)
  | sreg (c n : Nat) | vreg (c n : Nat) | preg (c n : Nat) | freg (c n : Nat) | latch (c n : Nat) | bank (c n : Nat)
  | retq (c seq : Nat) | snapshot (c entry : Nat) | withheld (c entry : Nat) | spill (c off : Nat) | localStore (c off : Nat)
  | shadow (c : Nat)
  | cellDir (k tag granule : Nat)
  | reqEntry (structure_ tag addr : Nat) | dieCtl (die : Nat) | rbdCtl (k : Nat) | hxd (structure_ : Nat)
  | copyOfCleanLine (die line : Nat) | codeLine (c line : Nat)
  deriving DecidableEq, Repr

/-- One discrepancy found by a permit audit (20 R395, R397). -/
structure Discrepancy where
  die : Nat
  link : Nat
  vc : Nat
  dup : Bool
  n : Nat
  deriving DecidableEq, Repr

/-- Who, other than a core of a launch, reaches global memory with tag 0: an application core or, in endpoint use, the external host
(15 R305); a PCI Express device behind a root port, through the IOMMU (25 R444). At the management connector, which reaches its mailbox alone,
an address is an offset of the layout of 26 R449. -/
inductive Outsider where
  | host
  | device (port : Nat)
  | connector
  deriving DecidableEq, Repr

/-- A read on its way to its coherence point: the load of a request number, or n bytes from outside. -/
inductive ReadAsk where
  | core (id : Nat)
  | outside (who : Outsider) (addr n : Nat)
  deriving DecidableEq, Repr

/-- A write on its way to its coherence point: the store of a request number, or bytes from outside. -/
inductive WriteAsk where
  | core (id : Nat)
  | outside (who : Outsider) (addr : Nat) (bs : List Byte)
  deriving DecidableEq, Repr

/-- A leaf with which the IOMMU answers (11 R246). -/
structure Leaf where
  va : Nat
  size : Nat
  pa : Nat
  r : Bool
  w : Bool
  deriving DecidableEq, Repr

/-- What the IOMMU's device and process contexts give for a PASID (11 R246, 25 R440): the root table, and which leaves they grant by the U bit,
those with U 1 and those with U 0. -/
structure ProcCtx where
  root : Nat
  user : Bool := true
  super : Bool := false
  deriving DecidableEq, Repr

/-- New contents of the page tables (11 R247, 25 R440): leaves in place of those that lie in a range, and the process context of a PASID. -/
structure PageNews where
  leaves : List Leaf
  root : Option (Nat × ProcCtx)
  deriving DecidableEq, Repr

/-- A range of virtual addresses that an ATS Invalidation Request names (11 R247). -/
structure VaRange where
  va : Nat
  size : Nat
  deriving DecidableEq, Repr

/-- The answer to a page request (11 R249): the page is present now, with the leaves that the tables have gained, or it is not. -/
inductive PageAnswer where
  | success (news : List Leaf)
  | failure
  deriving DecidableEq, Repr

/-- Where a corrected error is counted (20 R377, R396): on a die, or on the RBD of a stack. -/
inductive CorrectedAt where
  | die (d : Nat)
  | rbd (k : Nat)
  deriving DecidableEq, Repr

/-- Blocks of the capability list (25 R438) whose registers a write may name, and the mailbox of the management connector, which has the
layout of the management block's (26 R449). -/
inductive Block where
  | ident | launchPort | arbiter | tagAlloc | fwTable | spt | rbd | view | trapRec | contain | salder | intr | mgmt | connector
  deriving DecidableEq, Repr

/-- What the module's sensors show of its supply (26 R456): the input voltage in units of 10 mV, or a limit of the coolant found broken. -/
inductive Supply where
  | voltage (v : Nat)
  | coolant (limit : Nat)
  deriving DecidableEq, Repr

/-- The instructions of the eight slots and the steps of the package: one constructor per row of the opcode table. -/
inductive Instr where
  -- steps of a core's issue (07 R133, 06 R103)
  | bundleIssue
  | codeBufferFill (c line : Nat)
  -- BR slot (08 R155)
  | j (t : BitVec 20)
  | jf (neg : Bool) (f : BitVec 3) (t : BitVec 20)
  | jp (neg : Bool) (p : BitVec 4) (t : BitVec 20)
  | call (t : BitVec 20)
  | ret
  | loopImm (e : BitVec 13) (n : BitVec 12)
  | loopReg (e : BitVec 13) (r : BitVec 6)
  | lexit (neg : Bool) (f : BitVec 3)
  | exit
  | waitt (r : BitVec 6)
  | waiteImm (m : BitVec 16)
  | waiteReg (r : BitVec 6)
  | waitc (fd : BitVec 3) (r : BitVec 6)
  | trap (code : BitVec 16)
  | rett
  | halt
  -- SA and SB slots (08 R167)
  | add (o : SOp2) | sub (o : SOp2) | addi (o : SOpI) | addsh (o : SOp2) (sh : BitVec 6)
  | mul (o : SOp2) | mulh (o : SOp2) | mulhn (o : SOp2)
  | and (o : SOp2) | or (o : SOp2) | xor (o : SOp2) | andn (o : SOp2)
  | shl (o : SShift) | shr (o : SShift) | shra (o : SShift) | rotr (o : SShift)
  | min (o : SOp2) | max (o : SOp2) | minn (o : SOp2) | maxn (o : SOp2)
  | clz (o : SOp1) | ctz (o : SOp1) | popc (o : SOp1)
  | sext (o : SOp1) (w : ExtWidth) | zext (o : SOp1) (w : ExtWidth)
  | li (h : SHead) (imm : BitVec 18) | lih (o : SOpI) | mov (o : SOp1)
  | sel (o : SOp2) (f : BitVec 3)
  | cmp (side : Side) (f : BitVec 3) (wbs : Bool) (cc : SCond) (a b : SSrc)
  | rdix (h : SHead) (level : BitVec 3) | rdtc (h : SHead) | myxy (h : SHead) (form : XYForm)
  | rdsys (h : SHead) (num : BitVec 10) | wrsys (side : Side) (num : BitVec 10) (a : SSrc)
  | tfld (side : Side) (d : BitVec 6) (word : BitVec 10) | tfst (side : Side) (word : BitVec 10) (a : SSrc)
  -- VA and VB slots, floating (09 R181 to R186)
  | vadd (o : VOpR) | vsub (o : VOpR) | vmul (o : VOpR) | vfma (o : VOpR) | vfms (o : VOpR) | vfnma (o : VOpR)
  | vmin (o : VOp2) (nan : Bool) | vmax (o : VOp2) (nan : Bool)
  | vabs (o : VOp1) | vneg (o : VOp1) | vrcp (o : VOp1) | vrsq (o : VOp1) | vsqrt (o : VOp1) (m : RMode)
  | vexp2 (o : VOp1) | vlog2 (o : VOp1) | vsigm (o : VOp1) | vtanh (o : VOp1) | vfcls (o : VOp1)
  -- conversion (09 R187 to R194)
  | vcvt (o : VOp1) (src : ElemType) (m : RMode)
  | vqnt (o : VOpR) | vdqnt (o : VOpR) | vsrnd (o : VOpS)
  | vamax (o : VOp1) (abs : Bool) (pm : BitVec 4)
  | vmomq (h : VHead) (a b : VSrc) | vmomd (h : VHead) (m : RMode) (a b : VSrc) | vrand (h : VHead) (a : SSrc)
  -- integer and logic (09 R195 to R197)
  | viadd (o : VOp2) (v : IVar) | visub (o : VOp2) (v : IVar) | vimul (o : VOp2) (v : IVar) | vimac (o : VOp2) (v : IVar)
  | vand (h : VHead) (a b : VSrc) | vor (h : VHead) (a b : VSrc) | vxor (h : VHead) (a b : VSrc)
  | vshl (o : VOp1) (amt : VShAmt) | vshr (o : VOp1) (amt : VShAmt) | vshra (o : VOp1) (amt : VShAmt)
  | vimin (o : VOp2) | vimax (o : VOp2)
  -- compare and move (09 R198 to R202)
  | vcmp (side : Side) (p d : BitVec 4) (wbs : Bool) (ty : ElemType) (cc : VCond) (a b : VSrc)
  | vsel (h : VHead) (a b : VSrc) | vmov (h : VHead) (a : VSrc) | vbcst (h : VHead) (ty : ElemType) (a : SSrc)
  | vsplt (o : VOpS) | vperm (h : VHead) (a b : VSrc) | vrotl (o : VOpS)
  | vpack (o : VOp1) (half : BitVec 2) | vunpk (o : VOp1) (half : BitVec 2)
  | vextr (side : Side) (d : BitVec 6) (wbs : Bool) (ty : ElemType) (a : VSrc) (b : SSrc)
  | vins (h : VHead) (ty : ElemType) (a b : SSrc)
  -- reductions and predicates (09 R203 to R205)
  | vrsum (o : VRed) | vrmax (o : VRed) | vrmin (o : VRed) | vscan (o : VRed)
  | pand (o : POp2) | por (o : POp2) | pxor (o : POp2)
  | pnot (side : Side) (p d : BitVec 4) (wbs : Bool) (a : BitVec 4)
  | pset (side : Side) (p d : BitVec 4) (wbs first : Bool) (a : SSrc)
  | pcnt (side : Side) (d : BitVec 6) (wbs : Bool) (a : BitVec 4)
  | pany (side : Side) (d : BitVec 3) (wbs : Bool) (a : BitVec 4)
  | pall (side : Side) (d : BitVec 3) (wbs : Bool) (a : BitVec 4)
  -- MX slot (10 R228)
  | mma (o : MmaOp) | mmal (o : MmaOp)
  | azero (bank nm1 : BitVec 7) | anorm (bank nm1 : BitVec 7)
  | ard (vd : BitVec 11) (bank : BitVec 7) (row : BitVec 3) (form : RowForm)
  | awr (vs : BitVec 11) (bank : BitVec 7) (row : BitVec 3) (form : RowForm)
  | aalloc (sd : BitVec 6) (nm1 : BitVec 7) | afree (bank nm1 : BitVec 7) | astat (sd : BitVec 6)
  -- ME slot (13)
  | ld (o : MemS) | st (o : MemS) | vld (o : MemV) | vst (o : MemV) | vlds (o : MemVS) | vsts (o : MemVS)
  | spl (r : SVReg) (off : BitVec 15) | sps (r : SVReg) (off : BitVec 15)
  | gld (o : MemG) | gst (o : MemG) | ldx (r : SVReg) (base st : BitVec 6) (off : BitVec 18)
  | gacc (vs : BitVec 11) (base sl : BitVec 6)
  | atadd (o : AtOp) | atmin (o : AtOp) | atmax (o : AtOp) | atcas (o : AtOp) | atswp (o : AtOp)
  | phase (sc : Scope) | fence (ca cb : AccClass)
  | bkld (v : BitVec 11) (si : BitVec 6) | bkst (v : BitVec 11) (si : BitVec 6) | ctld (base : BitVec 6)
  -- AX slot (13, 16, 22)
  | cpy (sd s1 s2 s3 : BitVec 6) | cpys (sd s1 s2 s3 : BitVec 6)
  | slset (s1 : BitVec 6) (slv : BitVec 3) | sladv (sd s1 : BitVec 6) (slv : BitVec 3)
  | gth (sd s1 s2 s3 : BitVec 6) (spt : BitVec 6) | slmode (s1 : BitVec 6) (mode : SliceMode)
  | cntx (s1 s2 : BitVec 6) | cnta (s1 s2 : BitVec 6) | evsig (s1 s2 : BitVec 6) (sc : Scope)
  | jraise (s1 s2 : BitVec 6) | jdone (s1 : BitVec 6) | jflag (s1 s2 : BitVec 6)
  | lnch (s1 : BitVec 6) | cancel (s1 : BitVec 6)
  | tagnew (sd s1 s2 : BitVec 6) | tagret (s1 : BitVec 6) | tagq (sd s1 : BitVec 6)
  | bkdef (sd s1 : BitVec 6) | bkdone (s1 : BitVec 6) | push (sd s1 s2 s3 : BitVec 6)
  -- steps of a core
  | stitchPoint (c : Nat) | weakStoreFault (c seq : Nat) | taskExitComplete (c : Nat) | taskStart (c : Nat)
  | phaseComplete (c : Nat) | fenceComplete (c : Nat) | sliceSwitchPoint (c : Nat)
  -- steps of memory
  | globalReadRequest (q : ReadAsk) | globalWriteRequest (q : WriteAsk) | atomicPerform (id : Nat) | storeAck (id : Nat)
  | loadDataReturn (id : Nat)
  | atsTranslationReply (e : Engine) (va : Nat)
  | atsInvalidationRequest (range : VaRange) (news : Option PageNews)
  -- steps of engines
  | copyComplete (id : Nat) | sleeveFillComplete (id : Nat) | gatherRequest (id : Nat) | gatherComplete (id : Nat)
  | promiseExpiry (id : Nat)
  -- counters, events, JCBs
  | counterPost (id : Nat) | counterArrive (id : Nat) | overarrNotice (c detail : Nat) | eventArrival (c bits : Nat)
  | jcbCompletion (id : Nat) | jcbRaise (id : Nat) | jcbFlag (id : Nat)
  -- launches
  | launchAcceptance (id : Nat) | submissionRelease | lpCancel (die : Nat) (v : Word)
  | cancelPoint (token : Nat) | cancelTimeout (c : Nat) | agingPromote (rid : Nat) | placementPass | launchStart (rid : Nat)
  | dynRangeRequest (c : Nat) | pointFinish (rid q : Nat) | launchComplete (rid : Nat)
  -- tags
  | tagnewRequest (id : Nat) | tagnewAnswer (c tag : Nat) | tagretApply (id : Nat) | tagKill (tag structure_ addr : Nat)
  | tagDrain (tag k : Nat) | tagFree (tag : Nat) | tagqAnswer (id : Nat)
  -- buckets
  | bkdefRequest (id : Nat) | gaccArrival (m : GaccMsg) | gaccRetryResend (id : Nat) | nfNotice (c : Nat) (m : NfMsg)
  | shareStart (k : Nat) | copyOutComplete (k b : Nat) | pushArrival (m : PushMsg)
  -- freezes, rewinds, switching
  | switchOut (c : Nat) | clusterSave (rid cluster : Nat)
  | contextRestore (rid : Nat) | saveTimeout (c : Nat) | hangTimeout (c : Nat)
  -- records, monitors
  | trapRecordWrite (laneH : Bool) | trDoneWrite (laneH : Bool) (v : Word) | lpMonimg (die : Nat) (va : Word)
  -- format windows, stride patterns, stacks
  | fwEnable (n : Nat) (ctrl : BitVec 32) | fwDisable (n : Nat) (ctrl : BitVec 32)
  | sptEnable (n : Nat) (ctrl : BitVec 32) | sptDisable (n : Nat) (ctrl : BitVec 32)
  | rbDead (k : Nat) (v : Word) | rbBkrel (k : Nat) (v : Word)
  -- containment
  | ctFenceFence (die : Nat) | ctFenceClearHold (die : Nat) | dieFence (die reason : Nat)
  | packageFail (structure_ : Nat)
  -- Salder
  | salderPortEnable (n : Nat) | salderPortDisable (n : Nat) | salderPortForget (n : Nat)
  -- management
  | upwrite (conn : Bool) | attest (conn : Bool) | clockStep
  | tgaLimitWrite (v : Word)
  | trCtlWrite (laneH : Bool) (v : Word)
  | permitAudit (found : List Discrepancy)
  -- steps that only the outside places (log 1); no definition builds one
  | refresh (k ch bank row : Nat)
  | waittWake (c : Nat)
  | activationAlert (k ch bank row : Nat)
  | rbdWarm (k temp : Nat)
  | rbdNormal (k temp : Nat)
  | rbdDraining (k temp : Nat)
  | rbdSelfref (k : Nat)
  | rbdSelfrefExit (k temp : Nat)
  | uncorrectableError (site : ErrSite)
  | correctedError (place : CorrectedAt)
  | heartbeat (die : Nat)
  | heartbeatMiss (die : Nat)
  | dieQuiesced (die : Nat)
  | dieSalvaged (die : Nat) (failed : List Nat)
  | dieReadmit (die : Nat) (trained : Bool)
  | rbdReset (k : Nat) (lost : List Nat)
  | portTrained (n partner : Nat) (refused : Bool)
  | portDown (n : Nat)
  | flitReplay (n : Nat)
  | coldReset (endpoint : Bool) (port : Nat)
  | bootStepComplete (failed : List Nat) (reason : Nat)
  | sensorSample (n value : Nat) (valid : Bool)
  | thermalTrip (die : Nat)
  | supplyExcursion (x : Supply)
  | upcommit (conn signatureOk : Bool) (version : Nat)
  | registerWrite (blk : Block) (inst off size : Nat) (v : Word)
  | rbdResetResume (k : Nat)
  | pageRequestResponse (id : Nat) (answer : PageAnswer)
  | engineRequestFault (id cd : Nat)
  | monitorFreeze (c : Nat)
  | rewind (c : Nat) (pairMismatch : Bool)
  | alertBankReopen (k ch bank : Nat)
  | lpSubmit (die : Nat) (v : Word)
  | lineRecall (line die : Nat)
  deriving DecidableEq, Repr

end Sys2Proof
end

