-- ==== Sys2Proof/WellFormed.lean ====
section
/-! DEFINITION. WellFormed.lean: which terms of `Instr` are instructions: the types, modifiers and field limits that 06
R109 to R116, R122 to R125 and the instruction chapters accept. A term that fails is a reserved encoding. -/

namespace Sys2Proof

/-- Width of an element type in bits; untyped counts as 32 where an instruction accepts it (09 R178, 06 R122). -/
def ElemType.width : ElemType → Nat
  | .i8 | .n8 | .e4m3 | .e5m2 | .e8m0 | .t8 | .t6 | .mom8 => 8
  | .i16 | .n16 | .bf16 | .fp16 => 16
  | .i64 | .n64 => 64
  | .untyped | .i32 | .n32 | .fp32 => 32

/-- FP32, BF16 and FP16 (09, Floating arithmetic). -/
def ElemType.isFloat : ElemType → Bool
  | .fp32 | .bf16 | .fp16 => true
  | _ => false

/-- The six integer types of VIADD (09, Integer and logic). -/
def ElemType.isInt : ElemType → Bool
  | .i8 | .i16 | .i32 | .n8 | .n16 | .n32 => true
  | _ => false

/-- Signed integer types (04 R56). -/
def ElemType.signed : ElemType → Bool
  | .i8 | .i16 | .i32 | .i64 => true
  | _ => false

/-- The scaled types of VQNT (09 R188). -/
def ElemType.isScaled : ElemType → Bool
  | .e4m3 | .e5m2 | .t8 | .t6 => true
  | _ => false

/-- Untyped or any type of width 8, 16 or 32 (09 R200). -/
def ElemType.isMove : ElemType → Bool
  | .i64 | .n64 => false
  | _ => true

/-- Types of width 8 or 16 (09 R201). -/
def ElemType.isNarrow (t : ElemType) : Bool := t.width == 8 || t.width == 16

/-- FP32, I32, N32 (09 R198, R203). -/
def ElemType.isLane : ElemType → Bool
  | .fp32 | .i32 | .n32 => true
  | _ => false

/-- The pairs of VCVT and their modes (09 R187). -/
def cvtOk (s t : ElemType) (m : RMode) : Bool :=
  if s.isFloat && t.isFloat then s != t
  else if (s == .fp32 || s == .bf16) && (t == .e4m3 || t == .e5m2 || t == .t8) then true
  else if (s == .e4m3 || s == .e5m2 || s == .t8) && (t == .fp32 || t == .bf16) then true
  else if s.isInt && t.isFloat then true
  else if s.isFloat && t.isInt then true
  else s.isInt && t.isInt && s != t && m == .rne

/-- A scope code and its logarithms (13 R274, 16 R322). -/
def Scope.ok : Scope → Bool
  | .sub lw lh => decide (lw.toNat ≤ 5) && decide (lh.toNat ≤ 6)
  | _ => true

/-- Banks BANK to BANK + NM1 lie below ACB127 (06 R114). -/
def banksOk (bank nm1 : BitVec 7) : Bool := decide (bank.toNat + nm1.toNat ≤ 127)

/-- Limits of MMA and MMAL (06 R114, 10 R210, R228). -/
def MmaOp.ok (o : MmaOp) (many : Bool) : Bool :=
  o.acb.toNat % 4 == 0 && (many || o.kn == 0) &&
  match o.ty with
  | .bf16 => o.ss.isNone
  | .e4m3 | .e5m2 | .t8 => true
  | .t6 => o.ss.isSome
  | _ => false

/-- Types of a converted ARD or AWR (10 R228). -/
def RowForm.ok (aw : Bool) : RowForm → Bool
  | .conv t => t.isFloat
  | .head => !aw
  | _ => true

/-- Spill offsets are multiples of the access (06 R115, 13 R269). -/
def spillOk (r : SVReg) (off : BitVec 15) : Bool :=
  match r with
  | .s _ => off.toNat % 8 == 0
  | .v _ => off.toNat % 128 == 0

/-- A width code and its sign extension (13 R267). -/
def memSOk (o : MemS) (load : Bool) : Bool :=
  if load then !(o.sx && o.sz == 3) && !o.strong else !o.sx

/-- Fields of GLD and GST (13 R270). -/
def memGOk (o : MemG) (load : Bool) : Bool :=
  (match o.r with
   | .s _ => if load then !(o.sx && o.sz == 3) else !o.sx
   | .v _ => o.sz == 0 && !o.sx) && (!load || !o.strong)

/-- Fields of a vector load have no strength and no predicate (06 R115). -/
def memVOk (o : MemV) (load : Bool) : Bool := !load || (!o.strong && o.p == 0)
/-- See `memVOk`. -/
def memVSOk (o : MemVS) (load : Bool) : Bool := !load || (!o.strong && o.p == 0)

/-- Types and modes of a reduction: a mode or .NAN only for FP32 (09 R203, R204). -/
def vRedOk (o : VRed) (mode : Bool) : Bool :=
  o.ty.isLane && (if mode then !o.nan && (o.ty == .fp32 || o.m == .rne) else o.m == .rne && (o.ty == .fp32 || !o.nan))

/-- Whether a term is an instruction the encodings admit. Steps have no encoding: each is well-formed. -/
def Instr.wf : Instr → Bool
  | .loopImm e _ => e != 0
  | .loopReg e _ => e != 0
  | .vadd o | .vsub o | .vmul o | .vfma o | .vfms o | .vfnma o => o.ty.isFloat
  | .vmin o _ | .vmax o _ => o.ty.isFloat
  | .vabs o | .vneg o | .vrcp o | .vrsq o | .vexp2 o | .vlog2 o | .vsigm o | .vtanh o | .vfcls o => o.ty.isFloat
  | .vsqrt o _ => o.ty.isFloat
  | .vcvt o src m => cvtOk src o.ty m
  | .vqnt o | .vdqnt o => o.ty.isScaled
  | .vsrnd o => o.ty == .bf16 || o.ty == .fp16 || o.ty == .e4m3 || o.ty == .e5m2
  | .vamax o abs _ => if abs then o.ty == .fp32 else o.ty.isScaled
  | .viadd o v | .visub o v | .vimac o v => o.ty.isInt && v != .hi
  | .vimul o _ => o.ty.isInt
  | .vshl o _ | .vshr o _ | .vshra o _ => o.ty.isInt
  | .vimin o | .vimax o => o.ty.isInt
  | .vcmp _ _ _ _ ty cc _ _ => ty.isLane && (ty == .fp32 || cc != .un)
  | .vbcst _ ty _ => ty.isMove
  | .vsplt o | .vrotl o => o.ty.isMove
  | .vpack o half | .vunpk o half => o.ty.isNarrow && decide (half.toNat < 32 / o.ty.width)
  | .vextr _ _ _ ty _ _ => ty.isMove
  | .vins _ ty _ _ => ty.isMove
  | .vrsum o | .vscan o => vRedOk o true
  | .vrmax o | .vrmin o => vRedOk o false
  | .mma o => o.ok false
  | .mmal o => o.ok true
  | .azero b n | .anorm b n | .afree b n => banksOk b n
  | .ard _ _ _ form => form.ok false
  | .awr _ _ _ form => form.ok true
  | .ld o => memSOk o true
  | .st o => memSOk o false
  | .vld o => memVOk o true
  | .vst _ => true
  | .vlds o => memVSOk o true
  | .vsts _ => true
  | .spl r off | .sps r off => spillOk r off
  | .gld o => memGOk o true
  | .gst o => memGOk o false
  | .atmin o | .atmax o => o.sc == 0
  | .atadd o | .atswp o => !o.sgn && o.sc == 0
  | .atcas o => !o.sgn
  | .phase sc => sc.ok
  | .evsig _ _ sc => sc.ok && sc != .package
  | .rdix _ l => decide (l.toNat < 6)
  | _ => true

end Sys2Proof
end

