-- ==== Sys2Proof/Decode.lean ====
section
/-! DEFINITION. Decode.lean: from the bits of each slot to an instruction, or none for a reserved encoding (06 R109 to
R125), and the encoder written from the same tables. A slot is a number; bit 0 is its least significant bit. -/

namespace Sys2Proof

/-- Bits [lo + n - 1 : lo] of a word. -/
def bits (w lo n : Nat) : Nat := w / 2 ^ lo % 2 ^ n

/-- Whether a reserved field is zero (00 R5). -/
def zero (w lo n : Nat) : Bool := bits w lo n == 0

/-- The field as a bit vector. -/
def bv (w lo n : Nat) : BitVec n := BitVec.ofNat n (bits w lo n)

/-- One bit as a Bool. -/
def flag (w lo : Nat) : Bool := bits w lo 1 == 1

/-- Number of a Bool. -/
def b2n (b : Bool) : Nat := if b then 1 else 0

/-- A term is accepted when it is well-formed and the reserved fields are zero. -/
def accept (ok : Bool) (i : Instr) : Option Instr := if ok && i.wf then some i else none

/-- A scalar source field (06 R109): LU must be zero with LS, and the upper bits of a latch number. -/
def decS (x : Nat) : Option SSrc :=
  if flag x 6 then if zero x 7 1 && zero x 3 3 then some (.latch (bv x 0 3)) else none
  else some (.reg (bv x 0 6) (flag x 7))

/-- A vector source field (06 R109). -/
def decV (x : Nat) : Option VSrc :=
  if flag x 11 then if zero x 12 1 && zero x 3 8 then some (.latch (bv x 0 3)) else none
  else some (.reg (bv x 0 11) (flag x 12))

/-- A scalar named in a vector source field (09 R177). -/
def decVS (x : Nat) : Option SSrc :=
  if flag x 11 then if zero x 12 1 && zero x 3 8 then some (.latch (bv x 0 3)) else none
  else if zero x 6 5 then some (.reg (bv x 0 6) (flag x 12)) else none

/-- A predicate named in a vector source field (09 R177). -/
def decVP (x : Nat) : Option (BitVec 4) := if zero x 4 9 then some (bv x 0 4) else none

/-- Element types by code (06 R122). -/
def typeList : List ElemType :=
  [.untyped, .i8, .i16, .i32, .i64, .n8, .n16, .n32, .n64, .fp32, .bf16, .fp16, .e4m3, .e5m2, .e8m0, .t8, .t6, .mom8]

/-- Element type of a code (06 R122). -/
def decTy (x : Nat) : Option ElemType := typeList[x]?

/-- Code of an element type (06 R122). -/
def encTy : ElemType → Nat
  | .untyped => 0x00 | .i8 => 0x01 | .i16 => 0x02 | .i32 => 0x03 | .i64 => 0x04
  | .n8 => 0x05 | .n16 => 0x06 | .n32 => 0x07 | .n64 => 0x08
  | .fp32 => 0x09 | .bf16 => 0x0A | .fp16 => 0x0B | .e4m3 => 0x0C | .e5m2 => 0x0D | .e8m0 => 0x0E
  | .t8 => 0x0F | .t6 => 0x10 | .mom8 => 0x11

/-- Rounding mode of MOD (06 R123). -/
def decMode : Nat → Option RMode
  | 0 => some .rne | 1 => some .rtz | 2 => some .rup | 3 => some .rdn
  | _ => none
/-- See `decMode`. -/
def encMode : RMode → Nat
  | .rne => 0 | .rtz => 1 | .rup => 2 | .rdn => 3

/-- BR slot, 32 bits (06 R113, 08 R155). -/
def decBr (w : Nat) : Option Instr :=
  let t := bv w 0 20
  match bits w 26 6 with
  | 0x01 => accept (zero w 20 6) (.j t)
  | 0x02 => accept (zero w 24 1 && zero w 20 1) (.jf (flag w 25) (bv w 21 3) t)
  | 0x03 => accept (zero w 20 1) (.jp (flag w 25) (bv w 21 4) t)
  | 0x04 => accept (zero w 20 6) (.call t)
  | 0x05 => accept (zero w 0 26) .ret
  | 0x06 => if flag w 25 then accept true (.loopImm (bv w 12 13) (bv w 0 12))
            else accept (zero w 6 6) (.loopReg (bv w 12 13) (bv w 0 6))
  | 0x07 => accept (zero w 24 1 && zero w 0 21) (.lexit (flag w 25) (bv w 21 3))
  | 0x08 => accept (zero w 0 26) .exit
  | 0x09 => accept (zero w 6 20) (.waitt (bv w 0 6))
  | 0x0A => if flag w 25 then accept (zero w 16 9) (.waiteImm (bv w 0 16)) else accept (zero w 6 19) (.waiteReg (bv w 0 6))
  | 0x0B => accept (zero w 25 1 && zero w 6 16) (.waitc (bv w 22 3) (bv w 0 6))
  | 0x0C => accept (flag w 25 && zero w 16 9) (.trap (bv w 0 16))
  | 0x0D => accept (zero w 0 26) .rett
  | 0x0E => accept (zero w 0 26) .halt
  | _ => none

/-- Two scalar sources. -/
def decSOp2 (sd : Side) (w : Nat) : Option SOp2 := do
  return ⟨⟨sd, bv w 27 6, flag w 26⟩, ← decS (bits w 18 8), ← decS (bits w 10 8)⟩
/-- One scalar source. -/
def decSOp1 (sd : Side) (w : Nat) : Option SOp1 := do
  return ⟨⟨sd, bv w 27 6, flag w 26⟩, ← decS (bits w 18 8)⟩
/-- One scalar source and an immediate (06 R110). -/
def decSOpI (sd : Side) (w : Nat) : Option SOpI := do
  return ⟨⟨sd, bv w 27 6, flag w 26⟩, ← decS (bits w 18 8), bv w 0 18⟩
/-- A shift (08 R168). -/
def decShift (sd : Side) (w : Nat) : Option SShift := do
  let a ← decS (bits w 18 8)
  if flag w 6 then
    if zero w 10 8 && zero w 7 3 then some ⟨⟨sd, bv w 27 6, flag w 26⟩, a, .imm (bv w 0 6)⟩ else none
  else
    if zero w 0 6 && zero w 7 3 then some ⟨⟨sd, bv w 27 6, flag w 26⟩, a, .reg (← decS (bits w 10 8))⟩ else none

/-- Width of SEXT and ZEXT (08 R170). -/
def decExt : Nat → Option ExtWidth
  | 0 => some .w8 | 1 => some .w16 | 2 => some .w32
  | _ => none
/-- Condition of CMP (08 R171). -/
def decCond : Nat → Option SCond
  | 0 => some .eq | 1 => some .ne | 2 => some .lt | 3 => some .ge | 4 => some .ltn | 5 => some .gen | 6 => some .tst
  | _ => none
/-- Form of MYXY (08 R173). -/
def decXY : Nat → XYForm
  | 0 => .abs | 1 => .rel | 2 => .log | _ => .die

/-- SA and SB slots, 40 bits (06 R110, 08 R167). -/
def decSc (sd : Side) (w : Nat) : Option Instr :=
  let h : SHead := ⟨sd, bv w 27 6, flag w 26⟩
  let two (f : SOp2 → Instr) : Option Instr := do accept (zero w 0 10) (f (← decSOp2 sd w))
  let one (f : SOp1 → Instr) : Option Instr := do accept (zero w 0 18) (f (← decSOp1 sd w))
  let sh (f : SShift → Instr) : Option Instr := do accept true (f (← decShift sd w))
  match bits w 33 7 with
  | 0x01 => two .add
  | 0x02 => two .sub
  | 0x03 => do accept true (.addi (← decSOpI sd w))
  | 0x04 => do accept (zero w 6 4) (.addsh (← decSOp2 sd w) (bv w 0 6))
  | 0x05 => two .mul
  | 0x06 => two .mulh
  | 0x07 => two .mulhn
  | 0x08 => two .and
  | 0x09 => two .or
  | 0x0A => two .xor
  | 0x0B => two .andn
  | 0x0C => sh .shl
  | 0x0D => sh .shr
  | 0x0E => sh .shra
  | 0x0F => sh .rotr
  | 0x10 => two .min
  | 0x11 => two .max
  | 0x12 => two .minn
  | 0x13 => two .maxn
  | 0x14 => one .clz
  | 0x15 => one .ctz
  | 0x16 => one .popc
  | 0x17 => do accept (zero w 2 16) (.sext (← decSOp1 sd w) (← decExt (bits w 0 2)))
  | 0x18 => do accept (zero w 2 16) (.zext (← decSOp1 sd w) (← decExt (bits w 0 2)))
  | 0x19 => accept (zero w 18 8) (.li h (bv w 0 18))
  | 0x1A => do accept true (.lih (← decSOpI sd w))
  | 0x1B => one .mov
  | 0x1C => do accept (zero w 3 7) (.sel (← decSOp2 sd w) (bv w 0 3))
  | 0x1D => do
    accept (zero w 30 3 && zero w 3 7)
      (.cmp sd (bv w 27 3) (flag w 26) (← decCond (bits w 0 3)) (← decS (bits w 18 8)) (← decS (bits w 10 8)))
  | 0x1E => accept (zero w 3 23) (.rdix h (bv w 0 3))
  | 0x1F => accept (zero w 0 26) (.rdtc h)
  | 0x20 => accept (zero w 2 24) (.myxy h (decXY (bits w 0 2)))
  | 0x21 => accept (zero w 10 16) (.rdsys h (bv w 0 10))
  | 0x22 => do accept (zero w 26 7 && zero w 10 8) (.wrsys sd (bv w 0 10) (← decS (bits w 18 8)))
  | 0x23 => accept (zero w 10 17) (.tfld sd (bv w 27 6) (bv w 0 10))
  | 0x24 => do accept (zero w 26 7 && zero w 10 8) (.tfst sd (bv w 0 10) (← decS (bits w 18 8)))
  | _ => none

/-- Head of a vector slot (06 R111). -/
def decVHead (sd : Side) (w : Nat) : VHead := ⟨sd, bv w 48 4, bv w 37 11, flag w 36⟩
/-- SRC1 and SRC2 of a vector slot. -/
def src1 (w : Nat) : Nat := bits w 23 13
/-- See `src1`. -/
def src2 (w : Nat) : Nat := bits w 10 13
/-- One vector source with a type. -/
def decVOp1 (sd : Side) (w : Nat) : Option VOp1 := do return ⟨decVHead sd w, ← decTy (bits w 5 5), ← decV (src1 w)⟩
/-- Two vector sources with a type. -/
def decVOp2 (sd : Side) (w : Nat) : Option VOp2 := do
  return ⟨decVHead sd w, ← decTy (bits w 5 5), ← decV (src1 w), ← decV (src2 w)⟩
/-- Two vector sources, a type and a mode. -/
def decVOpR (sd : Side) (w : Nat) : Option VOpR := do
  return ⟨decVHead sd w, ← decTy (bits w 5 5), ← decMode (bits w 2 3), ← decV (src1 w), ← decV (src2 w)⟩
/-- A vector and a scalar source with a type. -/
def decVOpS (sd : Side) (w : Nat) : Option VOpS := do
  return ⟨decVHead sd w, ← decTy (bits w 5 5), ← decV (src1 w), ← decVS (src2 w)⟩
/-- A reduction: MOD is the mode of a sum of FP32, .NAN of an FP32 extreme (09 R203). -/
def decVRed (mode : Bool) (sd : Side) (w : Nat) : Option VRed := do
  let ty ← decTy (bits w 5 5)
  let pm ← decVP (src2 w)
  let a ← decV (src1 w)
  if mode then return ⟨decVHead sd w, ty, ← decMode (bits w 2 3), false, a, pm⟩
  else match bits w 2 3 with
    | 0 => return ⟨decVHead sd w, ty, .rne, false, a, pm⟩
    | 1 => return ⟨decVHead sd w, ty, .rne, true, a, pm⟩
    | _ => none
/-- Predicate to predicate (09 R205). -/
def decPOp2 (sd : Side) (w : Nat) : Option POp2 := do
  return ⟨sd, bv w 48 4, bv w 37 4, flag w 36, ← decVP (src1 w), ← decVP (src2 w)⟩

/-- Variant of VIADD to VIMAC (09 R195). -/
def decIVar : Nat → Option IVar
  | 0 => some .wrap | 1 => some .sat | 2 => some .hi
  | _ => none
/-- Condition of VCMP (09 R198). -/
def decVCond : Nat → Option VCond
  | 0 => some .eq | 1 => some .ne | 2 => some .lt | 3 => some .le | 4 => some .gt | 5 => some .ge | 6 => some .un
  | _ => none

/-- VA and VB slots, 60 bits (06 R111, 09). Bits [1:0] are reserved in every instruction. -/
def decVc (sd : Side) (w : Nat) : Option Instr :=
  let h := decVHead sd w
  let m0 := zero w 0 5                    -- MOD 0b000 and bits [1:0]
  let r0 := zero w 0 2
  let ut := zero w 5 5                    -- TYPE untyped
  let n2 := zero w 10 13                  -- SRC2 not used
  let rnd (f : VOpR → Instr) : Option Instr := do accept r0 (f (← decVOpR sd w))
  let one (f : VOp1 → Instr) : Option Instr := do accept (m0 && n2) (f (← decVOp1 sd w))
  let int (f : VOp2 → IVar → Instr) : Option Instr := do accept r0 (f (← decVOp2 sd w) (← decIVar (bits w 2 3)))
  let vvv (f : VHead → VSrc → VSrc → Instr) : Option Instr := do accept (m0 && ut) (f h (← decV (src1 w)) (← decV (src2 w)))
  let shf (f : VOp1 → VShAmt → Instr) : Option Instr := do
    let o ← decVOp1 sd w
    match bits w 2 3 with
    | 0 => accept r0 (f o (.vec (← decV (src2 w))))
    | 1 => accept r0 (f o (.scal (← decVS (src2 w))))
    | _ => none
  let ext (f : VOp2 → Bool → Instr) : Option Instr := do
    let o ← decVOp2 sd w
    match bits w 2 3 with
    | 0 => accept r0 (f o false)
    | 1 => accept r0 (f o true)
    | _ => none
  let vvs (f : VOpS → Instr) : Option Instr := do accept m0 (f (← decVOpS sd w))
  let pck (f : VOp1 → BitVec 2 → Instr) : Option Instr := do accept (r0 && zero w 4 1 && n2) (f (← decVOp1 sd w) (bv w 2 2))
  let pp (f : POp2 → Instr) : Option Instr := do accept (m0 && ut && zero w 41 7) (f (← decPOp2 sd w))
  match bits w 52 8 with
  | 0x01 => rnd .vadd
  | 0x02 => rnd .vsub
  | 0x03 => rnd .vmul
  | 0x04 => rnd .vfma
  | 0x05 => rnd .vfms
  | 0x06 => rnd .vfnma
  | 0x07 => ext .vmin
  | 0x08 => ext .vmax
  | 0x09 => one .vabs
  | 0x0A => one .vneg
  | 0x0B => one .vrcp
  | 0x0C => one .vrsq
  | 0x0D => do accept (r0 && n2) (.vsqrt (← decVOp1 sd w) (← decMode (bits w 2 3)))
  | 0x0E => one .vexp2
  | 0x0F => one .vlog2
  | 0x10 => one .vsigm
  | 0x11 => one .vtanh
  | 0x12 => one .vfcls
  | 0x20 => do accept (r0 && zero w 15 8) (.vcvt (← decVOp1 sd w) (← decTy (bits w 10 5)) (← decMode (bits w 2 3)))
  | 0x21 => rnd .vqnt
  | 0x22 => rnd .vdqnt
  | 0x23 => vvs .vsrnd
  | 0x24 => do
    let o ← decVOp1 sd w
    let pm ← decVP (src2 w)
    match bits w 2 3 with
    | 0 => accept r0 (.vamax o false pm)
    | 1 => accept r0 (.vamax o true pm)
    | _ => none
  | 0x25 => do accept (m0 && bits w 5 5 == 0x11) (.vmomq h (← decV (src1 w)) (← decV (src2 w)))
  | 0x26 => do accept (r0 && bits w 5 5 == 0x11) (.vmomd h (← decMode (bits w 2 3)) (← decV (src1 w)) (← decV (src2 w)))
  | 0x27 => do accept (m0 && n2 && bits w 5 5 == 0x07) (.vrand h (← decVS (src1 w)))
  | 0x30 => int .viadd
  | 0x31 => int .visub
  | 0x32 => int .vimul
  | 0x33 => int .vimac
  | 0x34 => vvv .vand
  | 0x35 => vvv .vor
  | 0x36 => vvv .vxor
  | 0x37 => shf .vshl
  | 0x38 => shf .vshr
  | 0x39 => shf .vshra
  | 0x3A => do accept m0 (.vimin (← decVOp2 sd w))
  | 0x3B => do accept m0 (.vimax (← decVOp2 sd w))
  | 0x40 => do
    accept (r0 && zero w 41 7) (.vcmp sd (bv w 48 4) (bv w 37 4) (flag w 36) (← decTy (bits w 5 5)) (← decVCond (bits w 2 3))
      (← decV (src1 w)) (← decV (src2 w)))
  | 0x41 => vvv .vsel
  | 0x42 => do accept (m0 && ut && n2) (.vmov h (← decV (src1 w)))
  | 0x43 => do accept (m0 && n2) (.vbcst h (← decTy (bits w 5 5)) (← decVS (src1 w)))
  | 0x44 => vvs .vsplt
  | 0x45 => vvv .vperm
  | 0x46 => vvs .vrotl
  | 0x47 => pck .vpack
  | 0x48 => pck .vunpk
  | 0x49 => do
    accept (m0 && zero w 48 4 && zero w 43 5)
      (.vextr sd (bv w 37 6) (flag w 36) (← decTy (bits w 5 5)) (← decV (src1 w)) (← decVS (src2 w)))
  | 0x4A => do accept m0 (.vins h (← decTy (bits w 5 5)) (← decVS (src1 w)) (← decVS (src2 w)))
  | 0x50 => do accept r0 (.vrsum (← decVRed true sd w))
  | 0x51 => do accept r0 (.vrmax (← decVRed false sd w))
  | 0x52 => do accept r0 (.vrmin (← decVRed false sd w))
  | 0x53 => do accept r0 (.vscan (← decVRed true sd w))
  | 0x60 => pp .pand
  | 0x61 => pp .por
  | 0x62 => pp .pxor
  | 0x63 => do accept (m0 && ut && n2 && zero w 41 7) (.pnot sd (bv w 48 4) (bv w 37 4) (flag w 36) (← decVP (src1 w)))
  | 0x64 => do
    let a ← decVS (src1 w)
    match bits w 2 3 with
    | 0 => accept (r0 && ut && n2 && zero w 41 7) (.pset sd (bv w 48 4) (bv w 37 4) (flag w 36) false a)
    | 1 => accept (r0 && ut && n2 && zero w 41 7) (.pset sd (bv w 48 4) (bv w 37 4) (flag w 36) true a)
    | _ => none
  | 0x65 => do accept (m0 && ut && n2 && zero w 48 4 && zero w 43 5) (.pcnt sd (bv w 37 6) (flag w 36) (← decVP (src1 w)))
  | 0x66 => do accept (m0 && ut && n2 && zero w 48 4 && zero w 40 8) (.pany sd (bv w 37 3) (flag w 36) (← decVP (src1 w)))
  | 0x67 => do accept (m0 && ut && n2 && zero w 48 4 && zero w 40 8) (.pall sd (bv w 37 3) (flag w 36) (← decVP (src1 w)))
  | _ => none

/-- Operands of MMA and MMAL (06 R114): SS is zero when SC is 0. -/
def decMma (w : Nat) : Option MmaOp := do
  let ty ← decTy (bits w 18 5)
  if flag w 15 then return ⟨bv w 36 6, bv w 30 6, bv w 23 7, ty, flag w 17, flag w 16, some (bv w 9 6), bv w 3 6⟩
  else if zero w 9 6 then return ⟨bv w 36 6, bv w 30 6, bv w 23 7, ty, flag w 17, flag w 16, none, bv w 3 6⟩
  else none

/-- MX slot, 48 bits (06 R114, 10 R228). -/
def decMx (w : Nat) : Option Instr :=
  match bits w 42 6 with
  | 0x01 => do accept (zero w 0 3) (.mma (← decMma w))
  | 0x02 => do accept (zero w 0 3) (.mmal (← decMma w))
  | 0x03 => accept (zero w 0 28) (.azero (bv w 35 7) (bv w 28 7))
  | 0x04 => accept (zero w 0 28) (.anorm (bv w 35 7) (bv w 28 7))
  | 0x05 =>
    match bits w 14 2 with
    | 0 => do accept (zero w 0 14) (.ard (bv w 31 11) (bv w 24 7) (bv w 21 3) (.conv (← decTy (bits w 16 5))))
    | 1 => accept (zero w 0 14 && zero w 16 5) (.ard (bv w 31 11) (bv w 24 7) (bv w 21 3) .rawlo)
    | 2 => accept (zero w 0 14 && zero w 16 5) (.ard (bv w 31 11) (bv w 24 7) (bv w 21 3) .rawhi)
    | _ => accept (zero w 0 14 && zero w 16 5) (.ard (bv w 31 11) (bv w 24 7) (bv w 21 3) .head)
  | 0x06 => do
    let form : RowForm := match ← decTy (bits w 16 5) with
      | .n32 => .rawlo
      | .i32 => .rawhi
      | t => .conv t
    accept (zero w 0 16) (.awr (bv w 31 11) (bv w 24 7) (bv w 21 3) form)
  | 0x07 => accept (zero w 0 29) (.aalloc (bv w 36 6) (bv w 29 7))
  | 0x08 => accept (zero w 0 28) (.afree (bv w 35 7) (bv w 28 7))
  | 0x09 => accept (zero w 0 36) (.astat (bv w 36 6))
  | _ => none

/-- A register that is scalar or vector (06 R115, VK). -/
def decSV (w : Nat) : Option SVReg :=
  if flag w 41 then some (.v (bv w 30 11)) else if zero w 36 5 then some (.s (bv w 30 6)) else none

/-- Access classes (06 R115). -/
def decClass : Nat → Option AccClass
  | 0 => some .ls | 1 => some .mxop | 2 => some .copy | 3 => some .sleeve | 4 => some .gather | 5 => some .acc | 6 => some .nmv
  | _ => none
/-- See `decClass`. -/
def encClass : AccClass → Nat
  | .ls => 0 | .mxop => 1 | .copy => 2 | .sleeve => 3 | .gather => 4 | .acc => 5 | .nmv => 6

/-- Scope codes (06 R115, R116): the logarithms belong to code 3 alone. -/
def decScope (sc lw lh : Nat) : Option Scope :=
  if sc = 3 then some (.sub (BitVec.ofNat 3 lw) (BitVec.ofNat 3 lh))
  else if lw = 0 ∧ lh = 0 then
    match sc with
    | 0 => some .core | 1 => some .cluster | 2 => some .die | 4 => some .launch | 5 => some .package
    | _ => none
  else none

/-- ME slot, 48 bits (06 R115). -/
def decMe (w : Nat) : Option Instr :=
  let ms (st : Bool) : MemS := ⟨bv w 36 6, bv w 30 6, bv w 28 2, flag w 27, st, bv w 0 20⟩
  let mv (st : Bool) (p : BitVec 4) : MemV := ⟨bv w 31 11, bv w 25 6, st, p, bv w 0 14⟩
  let mvs (st : Bool) (p : BitVec 4) : MemVS := ⟨bv w 31 11, bv w 25 6, st, p, bv w 14 6, bv w 0 14⟩
  let at_ : AtOp := ⟨bv w 36 6, bv w 30 6, bv w 24 6, bv w 18 6, flag w 17, flag w 16⟩
  match bits w 42 6 with
  | 0x01 => accept (zero w 20 7) (.ld (ms false))
  | 0x02 => accept (zero w 20 6) (.st (ms (flag w 26)))
  | 0x03 => accept (zero w 14 11) (.vld (mv false 0))
  | 0x04 => accept (zero w 14 6) (.vst (mv (flag w 24) (bv w 20 4)))
  | 0x05 => accept (zero w 20 5) (.vlds (mvs false 0))
  | 0x06 => accept true (.vsts (mvs (flag w 24) (bv w 20 4)))
  | 0x07 => do accept (zero w 15 15) (.spl (← decSV w) (bv w 0 15))
  | 0x08 => do accept (zero w 15 15) (.sps (← decSV w) (bv w 0 15))
  | 0x09 => do accept (zero w 23 1) (.gld ⟨← decSV w, bv w 24 6, false, bv w 21 2, flag w 20, bv w 0 20⟩)
  | 0x0A => do accept true (.gst ⟨← decSV w, bv w 24 6, flag w 23, bv w 21 2, flag w 20, bv w 0 20⟩)
  | 0x0B => do accept true (.ldx (← decSV w) (bv w 24 6) (bv w 18 6) (bv w 0 18))
  | 0x0C => accept (zero w 0 19) (.gacc (bv w 31 11) (bv w 25 6) (bv w 19 6))
  | 0x10 => accept (zero w 0 16) (.atadd at_)
  | 0x11 => accept (zero w 0 16) (.atmin at_)
  | 0x12 => accept (zero w 0 16) (.atmax at_)
  | 0x13 => accept (zero w 0 16) (.atcas at_)
  | 0x14 => accept (zero w 0 16) (.atswp at_)
  | 0x18 => do accept (zero w 0 32) (.phase (← decScope (bits w 38 4) (bits w 35 3) (bits w 32 3)))
  | 0x19 => do accept (zero w 0 36) (.fence (← decClass (bits w 39 3)) (← decClass (bits w 36 3)))
  | 0x20 => accept (zero w 0 25) (.bkld (bv w 31 11) (bv w 25 6))
  | 0x21 => accept (zero w 0 25) (.bkst (bv w 31 11) (bv w 25 6))
  | 0x22 => accept (zero w 0 36) (.ctld (bv w 36 6))
  | _ => none

/-- Modes of SLMODE (06 R116). -/
def decSlice : Nat → Option SliceMode
  | 1 => some .cache | 2 => some .scratch | 3 => some .fifo
  | _ => none
/-- See `decSlice`. -/
def encSlice : SliceMode → Nat
  | .cache => 1 | .scratch => 2 | .fifo => 3

/-- AX slot, 40 bits (06 R116): S3 and MOD share no bit; a field marked — is zero. -/
def decAx (w : Nat) : Option Instr :=
  let sd := bv w 28 6
  let s1 := bv w 22 6
  let s2 := bv w 16 6
  let s3 := bv w 10 6
  let nd := zero w 28 6
  let n2 := zero w 16 6
  let n3 := zero w 10 6
  let m0 := zero w 0 10
  match bits w 34 6 with
  | 0x01 => accept m0 (.cpy sd s1 s2 s3)
  | 0x02 => accept m0 (.cpys sd s1 s2 s3)
  | 0x03 => accept (nd && n2 && n3 && zero w 0 7) (.slset s1 (bv w 7 3))
  | 0x04 => accept (n2 && n3 && zero w 0 7) (.sladv sd s1 (bv w 7 3))
  | 0x05 => accept (zero w 6 4) (.gth sd s1 s2 s3 (bv w 0 6))
  | 0x06 => do accept (nd && n2 && n3 && zero w 2 8) (.slmode s1 (← decSlice (bits w 0 2)))
  | 0x08 => accept (nd && n3 && m0) (.cntx s1 s2)
  | 0x09 => accept (nd && n3 && m0) (.cnta s1 s2)
  | 0x0A => do accept (nd && n3) (.evsig s1 s2 (← decScope (bits w 6 4) (bits w 3 3) (bits w 0 3)))
  | 0x0B => accept (nd && n3 && m0) (.jraise s1 s2)
  | 0x0C => accept (nd && n2 && n3 && m0) (.jdone s1)
  | 0x0D => accept (nd && n3 && m0) (.jflag s1 s2)
  | 0x0E => accept (nd && n2 && n3 && m0) (.lnch s1)
  | 0x0F => accept (nd && n2 && n3 && m0) (.cancel s1)
  | 0x10 => accept (n3 && m0) (.tagnew sd s1 s2)
  | 0x11 => accept (nd && n2 && n3 && m0) (.tagret s1)
  | 0x12 => accept (n2 && n3 && m0) (.tagq sd s1)
  | 0x13 => accept (n2 && n3 && m0) (.bkdef sd s1)
  | 0x18 => accept (nd && n2 && n3 && m0) (.bkdone s1)
  | 0x19 => accept m0 (.push sd s1 s2 s3)
  | _ => none

/-- Fields (value, lowest bit) laid into a word. -/
def lay : List (Nat × Nat) → Nat
  | [] => 0
  | (v, lo) :: fs => v * 2 ^ lo + lay fs

/-- A scalar source field (06 R109). -/
def encS : SSrc → Nat
  | .reg n lu => lay [(n.toNat, 0), (b2n lu, 7)]
  | .latch k => lay [(k.toNat, 0), (1, 6)]
/-- A vector source field (06 R109). -/
def encV : VSrc → Nat
  | .reg n lu => lay [(n.toNat, 0), (b2n lu, 12)]
  | .latch k => lay [(k.toNat, 0), (1, 11)]
/-- A scalar named in a vector source field (09 R177). -/
def encVS : SSrc → Nat
  | .reg n lu => lay [(n.toNat, 0), (b2n lu, 12)]
  | .latch k => lay [(k.toNat, 0), (1, 11)]
/-- Widths, conditions, forms and variants. -/
def encExt : ExtWidth → Nat
  | .w8 => 0 | .w16 => 1 | .w32 => 2
/-- See `encExt`. -/
def encCond : SCond → Nat
  | .eq => 0 | .ne => 1 | .lt => 2 | .ge => 3 | .ltn => 4 | .gen => 5 | .tst => 6
/-- See `encExt`. -/
def encXY : XYForm → Nat
  | .abs => 0 | .rel => 1 | .log => 2 | .die => 3
/-- See `encExt`. -/
def encIVar : IVar → Nat
  | .wrap => 0 | .sat => 1 | .hi => 2
/-- See `encExt`. -/
def encVCond : VCond → Nat
  | .eq => 0 | .ne => 1 | .lt => 2 | .le => 3 | .gt => 4 | .ge => 5 | .un => 6
/-- Scope code and logarithms (06 R115). -/
def encScope : Scope → Nat × Nat × Nat
  | .core => (0, 0, 0) | .cluster => (1, 0, 0) | .die => (2, 0, 0) | .sub lw lh => (3, lw.toNat, lh.toNat)
  | .launch => (4, 0, 0) | .package => (5, 0, 0)

/-- A scalar slot: opcode, D, WBS and further fields (06 R110). -/
def encSH (op : Nat) (h : SHead) (fs : List (Nat × Nat)) : Nat := lay ((op, 33) :: (h.d.toNat, 27) :: (b2n h.wbs, 26) :: fs)
/-- Two sources. -/
def encS2 (op : Nat) (o : SOp2) (m : Nat) : Nat := encSH op o.toSHead [(encS o.a, 18), (encS o.b, 10), (m, 0)]
/-- One source. -/
def encS1 (op : Nat) (o : SOp1) (m : Nat) : Nat := encSH op o.toSHead [(encS o.a, 18), (m, 0)]
/-- A source and an immediate. -/
def encSI (op : Nat) (o : SOpI) : Nat := encSH op o.toSHead [(encS o.a, 18), (o.imm.toNat, 0)]
/-- A shift (08 R168). -/
def encSS (op : Nat) (o : SShift) : Nat :=
  match o.amt with
  | .imm n => encSH op o.toSHead [(encS o.a, 18), (1, 6), (n.toNat, 0)]
  | .reg b => encSH op o.toSHead [(encS o.a, 18), (encS b, 10)]

/-- A vector slot: opcode, P, D, WBS and further fields (06 R111). -/
def encVH (op : Nat) (h : VHead) (fs : List (Nat × Nat)) : Nat :=
  lay ((op, 52) :: (h.p.toNat, 48) :: (h.d.toNat, 37) :: (b2n h.wbs, 36) :: fs)
/-- One vector source. -/
def encV1 (op : Nat) (o : VOp1) (m s2 : Nat) : Nat := encVH op o.toVHead [(encV o.a, 23), (s2, 10), (encTy o.ty, 5), (m, 2)]
/-- Two vector sources. -/
def encV2 (op : Nat) (o : VOp2) (m : Nat) : Nat := encVH op o.toVHead [(encV o.a, 23), (encV o.b, 10), (encTy o.ty, 5), (m, 2)]
/-- Two vector sources and a mode. -/
def encVR (op : Nat) (o : VOpR) : Nat :=
  encVH op o.toVHead [(encV o.a, 23), (encV o.b, 10), (encTy o.ty, 5), (encMode o.m, 2)]
/-- A vector and a scalar source. -/
def encVSc (op : Nat) (o : VOpS) : Nat := encVH op o.toVHead [(encV o.a, 23), (encVS o.b, 10), (encTy o.ty, 5)]
/-- Two vector sources, untyped. -/
def encVV (op : Nat) (h : VHead) (a b : VSrc) : Nat := encVH op h [(encV a, 23), (encV b, 10)]
/-- A vector shift (09 R196). -/
def encVSh (op : Nat) (o : VOp1) (amt : VShAmt) : Nat :=
  match amt with
  | .vec b => encV1 op o 0 (encV b)
  | .scal b => encV1 op o 1 (encVS b)
/-- A reduction (09 R203). -/
def encVRd (op : Nat) (o : VRed) : Nat :=
  encVH op o.toVHead [(encV o.a, 23), (o.pm.toNat, 10), (encTy o.ty, 5), (encMode o.m + b2n o.nan, 2)]
/-- A vector slot whose D is of another kind (09 R177). -/
def encVD (op : Nat) (p d : Nat) (wbs : Bool) (fs : List (Nat × Nat)) : Nat :=
  lay ((op, 52) :: (p, 48) :: (d, 37) :: (b2n wbs, 36) :: fs)
/-- Predicate to predicate. -/
def encP2 (op : Nat) (o : POp2) : Nat := encVD op o.p.toNat o.d.toNat o.wbs [(o.a.toNat, 23), (o.b.toNat, 10)]

/-- MMA and MMAL (06 R114). -/
def encMma (op : Nat) (o : MmaOp) : Nat :=
  lay [(op, 42), (o.as.toNat, 36), (o.bs.toNat, 30), (o.acb.toNat, 23), (encTy o.ty, 18), (b2n o.ta, 17), (b2n o.tb, 16),
    (b2n o.ss.isSome, 15), ((o.ss.getD 0).toNat, 9), (o.kn.toNat, 3)]
/-- BANK and NM1. -/
def encBk (op : Nat) (b n : BitVec 7) : Nat := lay [(op, 42), (b.toNat, 35), (n.toNat, 28)]
/-- TYPE and RAW of ARD (10 R228). -/
def encArd : RowForm → Nat × Nat
  | .conv t => (encTy t, 0) | .rawlo => (0, 1) | .rawhi => (0, 2) | .head => (0, 3)
/-- TYPE of AWR (10 R228). -/
def encAwr : RowForm → Nat
  | .conv t => encTy t | .rawlo => 7 | .rawhi => 3 | .head => 0
/-- VK and the register (06 R115). -/
def encSV : SVReg → Nat
  | .s n => lay [(n.toNat, 30)]
  | .v n => lay [(n.toNat, 30), (1, 41)]
/-- LD and ST. -/
def encMS (op : Nat) (o : MemS) : Nat :=
  lay [(op, 42), (o.r.toNat, 36), (o.base.toNat, 30), (o.sz.toNat, 28), (b2n o.sx, 27), (b2n o.strong, 26), (o.off.toNat, 0)]
/-- VLD and VST. -/
def encMV (op : Nat) (o : MemV) : Nat :=
  lay [(op, 42), (o.v.toNat, 31), (o.base.toNat, 25), (b2n o.strong, 24), (o.p.toNat, 20), (o.off.toNat, 0)]
/-- VLDS and VSTS. -/
def encMVS (op : Nat) (o : MemVS) : Nat :=
  lay [(op, 42), (o.v.toNat, 31), (o.base.toNat, 25), (b2n o.strong, 24), (o.p.toNat, 20), (o.stride.toNat, 14), (o.off.toNat, 0)]
/-- GLD and GST. -/
def encMG (op : Nat) (o : MemG) : Nat :=
  lay [(op, 42), (encSV o.r, 0), (o.base.toNat, 24), (b2n o.strong, 23), (o.sz.toNat, 21), (b2n o.sx, 20), (o.off.toNat, 0)]
/-- Atomics. -/
def encAt (op : Nat) (o : AtOp) : Nat :=
  lay [(op, 42), (o.sd.toNat, 36), (o.base.toNat, 30), (o.sv.toNat, 24), (o.sc.toNat, 18), (b2n o.w64, 17), (b2n o.sgn, 16)]
/-- AX slot: SD, S1, S2, S3 and MOD (06 R116). -/
def encA (op sd s1 s2 s3 m : Nat) : Nat := lay [(op, 34), (sd, 28), (s1, 22), (s2, 16), (s3, 10), (m, 0)]

/-- The slot bits of an instruction (06 R109 to R116). A step of the package has no encoding and gives 0. -/
def encode : Instr → Nat
  | .j t => lay [(0x01, 26), (t.toNat, 0)]
  | .jf neg f t => lay [(0x02, 26), (b2n neg, 25), (f.toNat, 21), (t.toNat, 0)]
  | .jp neg p t => lay [(0x03, 26), (b2n neg, 25), (p.toNat, 21), (t.toNat, 0)]
  | .call t => lay [(0x04, 26), (t.toNat, 0)]
  | .ret => lay [(0x05, 26)]
  | .loopImm e n => lay [(0x06, 26), (1, 25), (e.toNat, 12), (n.toNat, 0)]
  | .loopReg e r => lay [(0x06, 26), (e.toNat, 12), (r.toNat, 0)]
  | .lexit neg f => lay [(0x07, 26), (b2n neg, 25), (f.toNat, 21)]
  | .exit => lay [(0x08, 26)]
  | .waitt r => lay [(0x09, 26), (r.toNat, 0)]
  | .waiteImm m => lay [(0x0A, 26), (1, 25), (m.toNat, 0)]
  | .waiteReg r => lay [(0x0A, 26), (r.toNat, 0)]
  | .waitc fd r => lay [(0x0B, 26), (fd.toNat, 22), (r.toNat, 0)]
  | .trap code => lay [(0x0C, 26), (1, 25), (code.toNat, 0)]
  | .rett => lay [(0x0D, 26)]
  | .halt => lay [(0x0E, 26)]
  | .add o => encS2 0x01 o 0
  | .sub o => encS2 0x02 o 0
  | .addi o => encSI 0x03 o
  | .addsh o sh => encS2 0x04 o sh.toNat
  | .mul o => encS2 0x05 o 0
  | .mulh o => encS2 0x06 o 0
  | .mulhn o => encS2 0x07 o 0
  | .and o => encS2 0x08 o 0
  | .or o => encS2 0x09 o 0
  | .xor o => encS2 0x0A o 0
  | .andn o => encS2 0x0B o 0
  | .shl o => encSS 0x0C o
  | .shr o => encSS 0x0D o
  | .shra o => encSS 0x0E o
  | .rotr o => encSS 0x0F o
  | .min o => encS2 0x10 o 0
  | .max o => encS2 0x11 o 0
  | .minn o => encS2 0x12 o 0
  | .maxn o => encS2 0x13 o 0
  | .clz o => encS1 0x14 o 0
  | .ctz o => encS1 0x15 o 0
  | .popc o => encS1 0x16 o 0
  | .sext o w => encS1 0x17 o (encExt w)
  | .zext o w => encS1 0x18 o (encExt w)
  | .li h imm => encSH 0x19 h [(imm.toNat, 0)]
  | .lih o => encSI 0x1A o
  | .mov o => encS1 0x1B o 0
  | .sel o f => encS2 0x1C o f.toNat
  | .cmp _ f wbs cc a b => lay [(0x1D, 33), (f.toNat, 27), (b2n wbs, 26), (encS a, 18), (encS b, 10), (encCond cc, 0)]
  | .rdix h l => encSH 0x1E h [(l.toNat, 0)]
  | .rdtc h => encSH 0x1F h []
  | .myxy h form => encSH 0x20 h [(encXY form, 0)]
  | .rdsys h num => encSH 0x21 h [(num.toNat, 0)]
  | .wrsys _ num a => lay [(0x22, 33), (encS a, 18), (num.toNat, 0)]
  | .tfld _ d word => lay [(0x23, 33), (d.toNat, 27), (word.toNat, 0)]
  | .tfst _ word a => lay [(0x24, 33), (encS a, 18), (word.toNat, 0)]
  | .vadd o => encVR 0x01 o
  | .vsub o => encVR 0x02 o
  | .vmul o => encVR 0x03 o
  | .vfma o => encVR 0x04 o
  | .vfms o => encVR 0x05 o
  | .vfnma o => encVR 0x06 o
  | .vmin o nan => encV2 0x07 o (b2n nan)
  | .vmax o nan => encV2 0x08 o (b2n nan)
  | .vabs o => encV1 0x09 o 0 0
  | .vneg o => encV1 0x0A o 0 0
  | .vrcp o => encV1 0x0B o 0 0
  | .vrsq o => encV1 0x0C o 0 0
  | .vsqrt o m => encV1 0x0D o (encMode m) 0
  | .vexp2 o => encV1 0x0E o 0 0
  | .vlog2 o => encV1 0x0F o 0 0
  | .vsigm o => encV1 0x10 o 0 0
  | .vtanh o => encV1 0x11 o 0 0
  | .vfcls o => encV1 0x12 o 0 0
  | .vcvt o src m => encV1 0x20 o (encMode m) (encTy src)
  | .vqnt o => encVR 0x21 o
  | .vdqnt o => encVR 0x22 o
  | .vsrnd o => encVSc 0x23 o
  | .vamax o abs pm => encV1 0x24 o (b2n abs) pm.toNat
  | .vmomq h a b => encVH 0x25 h [(encV a, 23), (encV b, 10), (0x11, 5)]
  | .vmomd h m a b => encVH 0x26 h [(encV a, 23), (encV b, 10), (0x11, 5), (encMode m, 2)]
  | .vrand h a => encVH 0x27 h [(encVS a, 23), (0x07, 5)]
  | .viadd o v => encV2 0x30 o (encIVar v)
  | .visub o v => encV2 0x31 o (encIVar v)
  | .vimul o v => encV2 0x32 o (encIVar v)
  | .vimac o v => encV2 0x33 o (encIVar v)
  | .vand h a b => encVV 0x34 h a b
  | .vor h a b => encVV 0x35 h a b
  | .vxor h a b => encVV 0x36 h a b
  | .vshl o amt => encVSh 0x37 o amt
  | .vshr o amt => encVSh 0x38 o amt
  | .vshra o amt => encVSh 0x39 o amt
  | .vimin o => encV2 0x3A o 0
  | .vimax o => encV2 0x3B o 0
  | .vcmp _ p d wbs ty cc a b =>
    encVD 0x40 p.toNat d.toNat wbs [(encV a, 23), (encV b, 10), (encTy ty, 5), (encVCond cc, 2)]
  | .vsel h a b => encVV 0x41 h a b
  | .vmov h a => encVH 0x42 h [(encV a, 23)]
  | .vbcst h ty a => encVH 0x43 h [(encVS a, 23), (encTy ty, 5)]
  | .vsplt o => encVSc 0x44 o
  | .vperm h a b => encVV 0x45 h a b
  | .vrotl o => encVSc 0x46 o
  | .vpack o half => encV1 0x47 o half.toNat 0
  | .vunpk o half => encV1 0x48 o half.toNat 0
  | .vextr _ d wbs ty a b => encVD 0x49 0 d.toNat wbs [(encV a, 23), (encVS b, 10), (encTy ty, 5)]
  | .vins h ty a b => encVH 0x4A h [(encVS a, 23), (encVS b, 10), (encTy ty, 5)]
  | .vrsum o => encVRd 0x50 o
  | .vrmax o => encVRd 0x51 o
  | .vrmin o => encVRd 0x52 o
  | .vscan o => encVRd 0x53 o
  | .pand o => encP2 0x60 o
  | .por o => encP2 0x61 o
  | .pxor o => encP2 0x62 o
  | .pnot _ p d wbs a => encVD 0x63 p.toNat d.toNat wbs [(a.toNat, 23)]
  | .pset _ p d wbs first a => encVD 0x64 p.toNat d.toNat wbs [(encVS a, 23), (b2n first, 2)]
  | .pcnt _ d wbs a => encVD 0x65 0 d.toNat wbs [(a.toNat, 23)]
  | .pany _ d wbs a => encVD 0x66 0 d.toNat wbs [(a.toNat, 23)]
  | .pall _ d wbs a => encVD 0x67 0 d.toNat wbs [(a.toNat, 23)]
  | .mma o => encMma 0x01 o
  | .mmal o => encMma 0x02 o
  | .azero b n => encBk 0x03 b n
  | .anorm b n => encBk 0x04 b n
  | .ard d b row form =>
    lay [(0x05, 42), (d.toNat, 31), (b.toNat, 24), (row.toNat, 21), ((encArd form).1, 16), ((encArd form).2, 14)]
  | .awr v b row form => lay [(0x06, 42), (v.toNat, 31), (b.toNat, 24), (row.toNat, 21), (encAwr form, 16)]
  | .aalloc d n => lay [(0x07, 42), (d.toNat, 36), (n.toNat, 29)]
  | .afree b n => encBk 0x08 b n
  | .astat d => lay [(0x09, 42), (d.toNat, 36)]
  | .ld o => encMS 0x01 o
  | .st o => encMS 0x02 o
  | .vld o => encMV 0x03 o
  | .vst o => encMV 0x04 o
  | .vlds o => encMVS 0x05 o
  | .vsts o => encMVS 0x06 o
  | .spl r off => lay [(0x07, 42), (encSV r, 0), (off.toNat, 0)]
  | .sps r off => lay [(0x08, 42), (encSV r, 0), (off.toNat, 0)]
  | .gld o => encMG 0x09 o
  | .gst o => encMG 0x0A o
  | .ldx r b st off => lay [(0x0B, 42), (encSV r, 0), (b.toNat, 24), (st.toNat, 18), (off.toNat, 0)]
  | .gacc v b sl => lay [(0x0C, 42), (v.toNat, 31), (b.toNat, 25), (sl.toNat, 19)]
  | .atadd o => encAt 0x10 o
  | .atmin o => encAt 0x11 o
  | .atmax o => encAt 0x12 o
  | .atcas o => encAt 0x13 o
  | .atswp o => encAt 0x14 o
  | .phase sc => lay [(0x18, 42), ((encScope sc).1, 38), ((encScope sc).2.1, 35), ((encScope sc).2.2, 32)]
  | .fence a b => lay [(0x19, 42), (encClass a, 39), (encClass b, 36)]
  | .bkld v si => lay [(0x20, 42), (v.toNat, 31), (si.toNat, 25)]
  | .bkst v si => lay [(0x21, 42), (v.toNat, 31), (si.toNat, 25)]
  | .ctld b => lay [(0x22, 42), (b.toNat, 36)]
  | .cpy d a b c => encA 0x01 d.toNat a.toNat b.toNat c.toNat 0
  | .cpys d a b c => encA 0x02 d.toNat a.toNat b.toNat c.toNat 0
  | .slset a n => encA 0x03 0 a.toNat 0 0 (n.toNat * 128)
  | .sladv d a n => encA 0x04 d.toNat a.toNat 0 0 (n.toNat * 128)
  | .gth d a b c spt => encA 0x05 d.toNat a.toNat b.toNat c.toNat spt.toNat
  | .slmode a m => encA 0x06 0 a.toNat 0 0 (encSlice m)
  | .cntx a b => encA 0x08 0 a.toNat b.toNat 0 0
  | .cnta a b => encA 0x09 0 a.toNat b.toNat 0 0
  | .evsig a b sc => encA 0x0A 0 a.toNat b.toNat 0 ((encScope sc).1 * 64 + (encScope sc).2.1 * 8 + (encScope sc).2.2)
  | .jraise a b => encA 0x0B 0 a.toNat b.toNat 0 0
  | .jdone a => encA 0x0C 0 a.toNat 0 0 0
  | .jflag a b => encA 0x0D 0 a.toNat b.toNat 0 0
  | .lnch a => encA 0x0E 0 a.toNat 0 0 0
  | .cancel a => encA 0x0F 0 a.toNat 0 0 0
  | .tagnew d a b => encA 0x10 d.toNat a.toNat b.toNat 0 0
  | .tagret a => encA 0x11 0 a.toNat 0 0 0
  | .tagq d a => encA 0x12 d.toNat a.toNat 0 0 0
  | .bkdef d a => encA 0x13 d.toNat a.toNat 0 0 0
  | .bkdone a => encA 0x18 0 a.toNat 0 0 0
  | .push d a b c => encA 0x19 d.toNat a.toNat b.toNat c.toNat 0
  | _ => 0

/-- The slot that an instruction is written for: 0 BR to 7 AX, none for a step (06 R106, R124). -/
def slotOf : Instr → Option Nat
  | .j _ | .jf _ _ _ | .jp _ _ _ | .call _ | .ret | .loopImm _ _ | .loopReg _ _ | .lexit _ _ | .exit | .waitt _ | .waiteImm _ | .waiteReg _ | .waitc _ _ | .trap _ | .rett | .halt => some 0
  | .add o => some (if o.side = .a then 1 else 2)
  | .sub o => some (if o.side = .a then 1 else 2)
  | .addi o => some (if o.side = .a then 1 else 2)
  | .addsh o _ => some (if o.side = .a then 1 else 2)
  | .mul o => some (if o.side = .a then 1 else 2)
  | .mulh o => some (if o.side = .a then 1 else 2)
  | .mulhn o => some (if o.side = .a then 1 else 2)
  | .and o => some (if o.side = .a then 1 else 2)
  | .or o => some (if o.side = .a then 1 else 2)
  | .xor o => some (if o.side = .a then 1 else 2)
  | .andn o => some (if o.side = .a then 1 else 2)
  | .shl o => some (if o.side = .a then 1 else 2)
  | .shr o => some (if o.side = .a then 1 else 2)
  | .shra o => some (if o.side = .a then 1 else 2)
  | .rotr o => some (if o.side = .a then 1 else 2)
  | .min o => some (if o.side = .a then 1 else 2)
  | .max o => some (if o.side = .a then 1 else 2)
  | .minn o => some (if o.side = .a then 1 else 2)
  | .maxn o => some (if o.side = .a then 1 else 2)
  | .clz o => some (if o.side = .a then 1 else 2)
  | .ctz o => some (if o.side = .a then 1 else 2)
  | .popc o => some (if o.side = .a then 1 else 2)
  | .sext o _ => some (if o.side = .a then 1 else 2)
  | .zext o _ => some (if o.side = .a then 1 else 2)
  | .li h _ => some (if h.side = .a then 1 else 2)
  | .lih o => some (if o.side = .a then 1 else 2)
  | .mov o => some (if o.side = .a then 1 else 2)
  | .sel o _ => some (if o.side = .a then 1 else 2)
  | .cmp side _ _ _ _ _ => some (if side = .a then 1 else 2)
  | .rdix h _ => some (if h.side = .a then 1 else 2)
  | .rdtc h => some (if h.side = .a then 1 else 2)
  | .myxy h _ => some (if h.side = .a then 1 else 2)
  | .rdsys h _ => some (if h.side = .a then 1 else 2)
  | .wrsys side _ _ => some (if side = .a then 1 else 2)
  | .tfld side _ _ => some (if side = .a then 1 else 2)
  | .tfst side _ _ => some (if side = .a then 1 else 2)
  | .vadd o => some (if o.side = .a then 3 else 4)
  | .vsub o => some (if o.side = .a then 3 else 4)
  | .vmul o => some (if o.side = .a then 3 else 4)
  | .vfma o => some (if o.side = .a then 3 else 4)
  | .vfms o => some (if o.side = .a then 3 else 4)
  | .vfnma o => some (if o.side = .a then 3 else 4)
  | .vmin o _ => some (if o.side = .a then 3 else 4)
  | .vmax o _ => some (if o.side = .a then 3 else 4)
  | .vabs o => some (if o.side = .a then 3 else 4)
  | .vneg o => some (if o.side = .a then 3 else 4)
  | .vrcp o => some (if o.side = .a then 3 else 4)
  | .vrsq o => some (if o.side = .a then 3 else 4)
  | .vsqrt o _ => some (if o.side = .a then 3 else 4)
  | .vexp2 o => some (if o.side = .a then 3 else 4)
  | .vlog2 o => some (if o.side = .a then 3 else 4)
  | .vsigm o => some (if o.side = .a then 3 else 4)
  | .vtanh o => some (if o.side = .a then 3 else 4)
  | .vfcls o => some (if o.side = .a then 3 else 4)
  | .vcvt o _ _ => some (if o.side = .a then 3 else 4)
  | .vqnt o => some (if o.side = .a then 3 else 4)
  | .vdqnt o => some (if o.side = .a then 3 else 4)
  | .vsrnd o => some (if o.side = .a then 3 else 4)
  | .vamax o _ _ => some (if o.side = .a then 3 else 4)
  | .vmomq h _ _ => some (if h.side = .a then 3 else 4)
  | .vmomd h _ _ _ => some (if h.side = .a then 3 else 4)
  | .vrand h _ => some (if h.side = .a then 3 else 4)
  | .viadd o _ => some (if o.side = .a then 3 else 4)
  | .visub o _ => some (if o.side = .a then 3 else 4)
  | .vimul o _ => some (if o.side = .a then 3 else 4)
  | .vimac o _ => some (if o.side = .a then 3 else 4)
  | .vand h _ _ => some (if h.side = .a then 3 else 4)
  | .vor h _ _ => some (if h.side = .a then 3 else 4)
  | .vxor h _ _ => some (if h.side = .a then 3 else 4)
  | .vshl o _ => some (if o.side = .a then 3 else 4)
  | .vshr o _ => some (if o.side = .a then 3 else 4)
  | .vshra o _ => some (if o.side = .a then 3 else 4)
  | .vimin o => some (if o.side = .a then 3 else 4)
  | .vimax o => some (if o.side = .a then 3 else 4)
  | .vcmp side _ _ _ _ _ _ _ => some (if side = .a then 3 else 4)
  | .vsel h _ _ => some (if h.side = .a then 3 else 4)
  | .vmov h _ => some (if h.side = .a then 3 else 4)
  | .vbcst h _ _ => some (if h.side = .a then 3 else 4)
  | .vsplt o => some (if o.side = .a then 3 else 4)
  | .vperm h _ _ => some (if h.side = .a then 3 else 4)
  | .vrotl o => some (if o.side = .a then 3 else 4)
  | .vpack o _ => some (if o.side = .a then 3 else 4)
  | .vunpk o _ => some (if o.side = .a then 3 else 4)
  | .vextr side _ _ _ _ _ => some (if side = .a then 3 else 4)
  | .vins h _ _ _ => some (if h.side = .a then 3 else 4)
  | .vrsum o => some (if o.side = .a then 3 else 4)
  | .vrmax o => some (if o.side = .a then 3 else 4)
  | .vrmin o => some (if o.side = .a then 3 else 4)
  | .vscan o => some (if o.side = .a then 3 else 4)
  | .pand o => some (if o.side = .a then 3 else 4)
  | .por o => some (if o.side = .a then 3 else 4)
  | .pxor o => some (if o.side = .a then 3 else 4)
  | .pnot side _ _ _ _ => some (if side = .a then 3 else 4)
  | .pset side _ _ _ _ _ => some (if side = .a then 3 else 4)
  | .pcnt side _ _ _ => some (if side = .a then 3 else 4)
  | .pany side _ _ _ => some (if side = .a then 3 else 4)
  | .pall side _ _ _ => some (if side = .a then 3 else 4)
  | .mma _ | .mmal _ | .azero _ _ | .anorm _ _ | .ard _ _ _ _ | .awr _ _ _ _ | .aalloc _ _ | .afree _ _ | .astat _ => some 5
  | .ld _ | .st _ | .vld _ | .vst _ | .vlds _ | .vsts _ | .spl _ _ | .sps _ _ | .gld _ | .gst _ | .ldx _ _ _ _ | .gacc _ _ _ | .atadd _ | .atmin _ | .atmax _ | .atcas _ | .atswp _ | .phase _ | .fence _ _ | .bkld _ _ | .bkst _ _ | .ctld _ => some 6
  | .cpy _ _ _ _ | .cpys _ _ _ _ | .slset _ _ | .sladv _ _ _ | .gth _ _ _ _ _ | .slmode _ _ | .cntx _ _ | .cnta _ _ | .evsig _ _ _ | .jraise _ _ | .jdone _ | .jflag _ _ | .lnch _ | .cancel _ | .tagnew _ _ _ | .tagret _ | .tagq _ _ | .bkdef _ _ | .bkdone _ | .push _ _ _ _ => some 7
  | _ => none

/-- Slots in the order of a bundle (06 R106): number 0 for BR to 7 for AX, with lowest bit and width. -/
def slotPos : Nat → Nat × Nat
  | 0 => (336, 32) | 1 => (296, 40) | 2 => (256, 40) | 3 => (196, 60) | 4 => (136, 60) | 5 => (88, 48) | 6 => (40, 48)
  | _ => (0, 40)

/-- Bits of slot n of a bundle. -/
def slotBits (b : BundleBits) (n : Nat) : Nat := bits b.toNat (slotPos n).1 (slotPos n).2

/-- PRES bit of slot n (06 R107). -/
def present (b : BundleBits) (n : Nat) : Bool := flag b.toNat (368 + (7 - n))

/-- Opcode of slot n. -/
def slotOp (b : BundleBits) (n : Nat) : Nat :=
  match n with
  | 0 => bits (slotBits b 0) 26 6
  | 1 | 2 => bits (slotBits b n) 33 7
  | 3 | 4 => bits (slotBits b n) 52 8
  | 5 | 6 => bits (slotBits b n) 42 6
  | _ => bits (slotBits b 7) 34 6

/-- The instruction that the bits of slot n hold (06 R106: BR, SA, SB, VA, VB, MX, ME, AX). -/
def decodeSlot (n w : Nat) : Option Instr :=
  match n with
  | 0 => decBr w
  | 1 => decSc .a w
  | 2 => decSc .b w
  | 3 => decVc .a w
  | 4 => decVc .b w
  | 5 => decMx w
  | 6 => decMe w
  | _ => decAx w

/-- The instruction of slot n of a bundle. -/
def decSlot (b : BundleBits) (n : Nat) : Option Instr := decodeSlot n (slotBits b n)

/-- PROF, STITCH and SEAM of a header (06 R107). -/
def bundleProf (b : BundleBits) : Nat := bits b.toNat 378 6
/-- See `bundleProf`. -/
def bundleStitch (b : BundleBits) : Bool := flag b.toNat 377
/-- See `bundleProf`. -/
def bundleSeam (b : BundleBits) : Bool := flag b.toNat 376

/-- NMV-only instructions (06 R124). -/
def Instr.nmvOnly : Instr → Bool
  | .bkld _ _ | .bkst _ _ | .ctld _ | .bkdone _ | .push _ _ _ _ => true
  | _ => false

/-- Registers, flags and banks a slot writes, as field codes (06 R125): WBS, S0, P0 and F0 are not counted. -/
def Instr.writes (i : Instr) : List Nat :=
  let s (d : BitVec 6) (wbs : Bool) : List Nat := if wbs || d == 0 then [] else [d.toNat]
  let v (h : VHead) : List Nat := if h.wbs then [] else [0x1000 + h.d.toNat]
  let p (d : BitVec 4) (wbs : Bool) : List Nat := if wbs || d == 0 then [] else [0x2000 + d.toNat]
  let f (d : BitVec 3) (wbs : Bool) : List Nat := if wbs || d == 0 then [] else [0x3000 + d.toNat]
  let bs (b n : Nat) : List Nat := (List.range n).map (fun k => 0x4000 + b + k)
  let sv : SVReg → List Nat
    | .s n => s n false
    | .v n => [0x1000 + n.toNat]
  match i with
  | .waitc fd _ => f fd false
  | .add o | .sub o | .addsh o _ | .mul o | .mulh o | .mulhn o | .and o | .or o | .xor o | .andn o
  | .min o | .max o | .minn o | .maxn o | .sel o _ => s o.d o.wbs
  | .addi o | .lih o => s o.d o.wbs
  | .shl o | .shr o | .shra o | .rotr o => s o.d o.wbs
  | .clz o | .ctz o | .popc o | .sext o _ | .zext o _ | .mov o => s o.d o.wbs
  | .li h _ | .rdix h _ | .rdtc h | .myxy h _ | .rdsys h _ => s h.d h.wbs
  | .cmp _ d wbs _ _ _ => f d wbs
  | .tfld _ d _ => s d false
  | .vadd o | .vsub o | .vmul o | .vfma o | .vfms o | .vfnma o | .vqnt o | .vdqnt o => v o.toVHead
  | .vmin o _ | .vmax o _ | .viadd o _ | .visub o _ | .vimul o _ | .vimac o _ | .vimin o | .vimax o => v o.toVHead
  | .vabs o | .vneg o | .vrcp o | .vrsq o | .vsqrt o _ | .vexp2 o | .vlog2 o | .vsigm o | .vtanh o | .vfcls o
  | .vcvt o _ _ | .vamax o _ _ | .vshl o _ | .vshr o _ | .vshra o _ | .vpack o _ | .vunpk o _ => v o.toVHead
  | .vsrnd o | .vsplt o | .vrotl o => v o.toVHead
  | .vmomq h _ _ | .vmomd h _ _ _ | .vrand h _ | .vand h _ _ | .vor h _ _ | .vxor h _ _ | .vsel h _ _ | .vmov h _
  | .vbcst h _ _ | .vperm h _ _ | .vins h _ _ _ => v h
  | .vrsum o | .vrmax o | .vrmin o | .vscan o => v o.toVHead
  | .vcmp _ _ d wbs _ _ _ _ => p d wbs
  | .vextr _ d wbs _ _ _ => s d wbs
  | .pand o | .por o | .pxor o => p o.d o.wbs
  | .pnot _ _ d wbs _ | .pset _ _ d wbs _ _ => p d wbs
  | .pcnt _ d wbs _ => s d wbs
  | .pany _ d wbs _ | .pall _ d wbs _ => f d wbs
  | .mma o | .mmal o => bs o.acb.toNat 4
  | .azero b n | .anorm b n => bs b.toNat (n.toNat + 1)
  | .ard d _ _ _ => [0x1000 + d.toNat]
  | .awr _ b _ _ => bs b.toNat 1
  | .aalloc d _ | .astat d => s d false
  | .ld o => s o.r false
  | .vld o => [0x1000 + o.v.toNat]
  | .vlds o => [0x1000 + o.v.toNat]
  | .spl r _ | .ldx r _ _ _ => sv r
  | .gld o => sv o.r
  | .atadd o | .atmin o | .atmax o | .atcas o | .atswp o => s o.sd false
  | .bkld d _ => [0x1000 + d.toNat]
  | .cpy d _ _ _ | .cpys d _ _ _ | .gth d _ _ _ _ | .push d _ _ _ => s d false
  | .sladv d _ _ | .tagq d _ | .bkdef d _ => s d false
  | .tagnew d _ _ => s d false
  | _ => []

/-- The first write of a list that a later slot writes again, by the lowest-numbered slot (06 R125, R457). -/
def conflict : List (List Nat) → Option Nat
  | [] => none
  | ws :: rest =>
    match ws.find? (fun c => rest.any (fun r => r.contains c)) with
    | some c => some c
    | none => conflict rest

/-- What an entry or a literal fails (06 R125, R126). -/
inductive BadBundle where
  /-- A slot that is reserved, or not of the image's kind. -/
  | slot (n : Nat)
  /-- Two slots write one register or bank. -/
  | conflict (code : Nat)
  deriving DecidableEq, Repr

/-- The checks of 06 R125 in slot order; opcode 0 is not among them (R108), but an NMV image has no MX slot, whatever its opcode. The
encodings of all slots come before the write conflicts (log 102). -/
def checkBundle (b : BundleBits) (nmv : Bool) : Option BadBundle :=
  let here := (List.range 8).filter (fun n => present b n)
  let slots := here.filter (fun n => slotOp b n != 0)
  match here.find? (fun n => (n == 5 && nmv) || (slotOp b n != 0 && (match decSlot b n with
      | none => true
      | some i => i.nmvOnly && !nmv))) with
  | some n => some (.slot n)
  | none => (conflict (slots.map (fun n => match decSlot b n with | some i => i.writes | none => []))).map .conflict

/-- The present slots of a bundle with opcode not 0, in order (06 R126). -/
def bundleSlots (b : BundleBits) : List (Nat × Instr) :=
  (List.range 8).filterMap (fun n => if present b n then (decSlot b n).map (fun i => (n, i)) else none)

/-- The lowest present slot with opcode 0 (06 R126 step 4). -/
def zeroSlot (b : BundleBits) : Option Nat := (List.range 8).find? (fun n => present b n && slotOp b n == 0)

/-- The instruction that the decoder reads from a table row's word: only the 32-bit branch slot has rows with bits, and a
branch slot is one word (opcode_table.json). -/
def decodeTableWord (nbits w : Nat) : Option Instr := if nbits ≤ 32 then decBr (w % 2 ^ 32) else none

end Sys2Proof
end

