-- ==== Sys2Proof/Config.lean ====
section
/-! DEFINITION. Config.lean: what is fixed for the machine, and the free values, which nothing here can evaluate.

A free value is an `opaque` constant with no body: it is applied to the counter `fresh` of the state (or to the
operands it depends on), so a claim about it holds whatever it is (log 6). -/

namespace Sys2Proof.Config

/-- Free 64-bit value number n: an undefined scalar (00 R8), log 7. -/
opaque freeWord : Nat → Word
/-- Free 1,024-bit value number n: an undefined vector (00 R8), log 7. -/
opaque freeVec : Nat → Vec
/-- Free 32-bit value number n: an undefined predicate (00 R8), log 7. -/
opaque freePred : Nat → BitVec 32
/-- Free flag value number n (00 R8), log 7. -/
opaque freeFlag : Nat → Bool
/-- The promise, a TC, that an engine gives as request number n of the package (13 R280), log 8. -/
opaque promise : Nat → Word
/-- Whether choice number n lets a line held on the die answer a read (15 R302), log 9. -/
opaque heldLineAnswers : Nat → Bool
/-- Whether the bucket of a line is among those reassigned at change n of a die's CACHE slices (11 R243 gives no hash), log 98. -/
opaque bucketMoves : Nat → Nat → Bool
/-- Whether Lane N has no room for a record while n records of it wait (18 R353 gives no bound), log 35. -/
opaque laneNFull : Nat → Bool
/-- The byte that a device behind a PCI Express window answers for read number n (25 R437), log 13. -/
opaque deviceByte : Nat → Nat → Byte
/-- The byte of an overlapping copy that is taken from after the move (13 R278), log 16. -/
opaque overlapTakesNew : Nat → Bool
/-- Signed report of an ATTEST (26 R455), by what it holds as a list of numbers: byte i of report number n, whose places and signature the
spec does not give, log 19. -/
opaque reportByte : List Nat → Nat → Nat → Byte
/-- The SHAKE256 digest of an image's bytes, for part n of the firmware of a slot, or for a monitor image (26 R455 gives no length), log 19. -/
opaque digest : Nat → List Byte → List Byte

/-- The code of an event-log entry, by kind of event (26 R453 gives none), log 31. -/
opaque eventCode : Nat → BitVec 16
/-- The value of event-log entry number n (26 R453 gives none), log 31. -/
opaque eventValue : Nat → Word
/-- The error code with which command number n that no row of 26 R454 gives ends, log 24. -/
opaque unknownCommand : Nat → BitVec 8
/-- Whether the withheld entries of a core leave as its WAITC begins, by the number of the choice: 20 R381 names no wait among the cases in
which entries leave, and the run of 24 R434 to R436 has a signal leave there (log 79). -/
opaque waitReleases : Nat → Bool
/-- The hash of a request's identity that chooses a port (25 R447 gives none), log 27. -/
opaque portHash : Nat → Nat

/-- Whether the activation of a row that serves an access is closed by a precharge (12 R256), by the number of the access: 2^42 times the TC
cycle plus the row's granule (log 76). -/
opaque rowCloses : Nat → Bool

/-- Physical base of each block of the capability list by ID (25 R438): the manual gives only the list's own
base, so these are the model's (log 20). -/
def blockBase (id : Nat) : Nat := 0x0400_0000_0000 + 0x100_0000 * id
/-- Stride between instances of a block (25 R438), the model's (log 20). -/
def blockStride (id : Nat) : Nat := if id = 0x0007 then 0x4_0000 else 0x1000
/-- Physical base of the capability list (25 R438). -/
def capBase : Nat := 0x0400_0000_0000

/-- Halfwords in one line of the code buffer, and its lines (06 R103: 16 KiB); the fill unit is the model's (log 21). -/
def codeLine : Nat := 64
/-- Lines of the code buffer. -/
def codeLines : Nat := 128

/-- Product form of a profile (10 R220). -/
inductive Prod where
  | exact | bf16
  deriving DecidableEq, Repr

/-- Alignment rounding of a profile (10 R215). -/
inductive AlignMode where
  | trunc | rne
  deriving DecidableEq, Repr

/-- Shape of the summation tree (10 R217). -/
inductive TreeShape where
  | pairwise | serial
  deriving DecidableEq, Repr

/-- The parameters of a numerics profile (10 R220). -/
structure Profile where
  gs : Nat
  prod : Prod
  aw : Nat
  ar : AlignMode
  tree : TreeShape
  np : Nat
  ardRtz : Bool
  hrt : Bool
  deriving DecidableEq, Repr

/-- Profiles 1 to 6 (10 R220); any other number gives profile 1's parameters and is never used (06 R126). -/
def profile : Nat → Profile
  | 2 => ⟨16, .exact, 48, .rne, .pairwise, 41, false, false⟩
  | 3 => ⟨64, .exact, 24, .trunc, .serial, 41, false, false⟩
  | 4 => ⟨32, .exact, 28, .trunc, .pairwise, 41, false, true⟩
  | 5 => ⟨8, .exact, 24, .rne, .serial, 24, false, false⟩
  | 6 => ⟨32, .bf16, 24, .trunc, .serial, 24, true, false⟩
  | _ => ⟨32, .exact, 28, .trunc, .pairwise, 41, false, false⟩

end Sys2Proof.Config
end

