-- ==== Sys2Proof/Machine/State.lean ====
section
/-! DEFINITION. State.lean: the state of the package as plain data, the reasons to stop, and the state after reset.

Every register a rule names has one field. A register file is a table of (number, value) pairs in rising order of
number; a number not listed holds the default the accessor of Machine/Ops.lean names. -/

namespace Sys2Proof.Machine

/-- A table from numbers to values, rising keys, no repeats (Machine/Ops.lean reads and writes it). -/
abbrev Tbl (α : Type) := List (Nat × α)

/-- Bytes by address, in the canonical form of `Memory.wf`: an address not listed reads 0 (log 3). -/
abbrev Memory := List Host.Cell

/-- Reasons the machine stops: the spec gives the package none. -/
inductive Fault where
  deriving DecidableEq, Repr

/-- Reasons the model gives an instruction no meaning. -/
inductive Refusal where
  /-- An instruction of the opcode table without a meaning yet. Raised by an arm of `exec`; safe. -/
  | notModelled (mnemonic : String)
  deriving DecidableEq, Repr

/-- Trap causes (06 R127). -/
inductive Cause where
  | illop | badidx | badtgt | slotconf | badprof | nonuni | deadreg | stale | early | mxbusy | bankconf
  | calldeep | retempty | loopdeep | promise | pagef | acchold | hr | overarr | cellfull | fifobusy
  | diefenced | poison | pairmism | watchdog | nf | swtrap | intr
  deriving DecidableEq, Repr

/-- Reasons of PAGEF (11 R248). -/
inductive PReason where
  | notpresent | nowrite | noncanon | untaggable | viewwrite | unbacked | respfail
  deriving DecidableEq, Repr

/-- Where the kernel resumes (18 R341). -/
inductive PosKind where
  | next | pend | wait | again
  deriving DecidableEq, Repr

/-- A trap with its detail word and address (18 R345). -/
structure TrapInfo where
  cause : Cause
  detail : BitVec 32
  addr : Word
  deriving DecidableEq, Repr

/-- Destination of a result (18 R346 KIND). -/
inductive Dest where
  | none
  | s (n : BitVec 6) | v (n : BitVec 11) | p (n : BitVec 4) | f (n : BitVec 3)
  deriving DecidableEq, Repr

/-- State of a return-queue entry (18 R342, R344). -/
inductive RqSt where
  | wait                       -- data not yet present
  | ready
  | xlat                       -- its translation has not been answered (11 R247)
  | page (id : Nat)            -- its page request is outstanding
  | fault (t : TrapInfo)
  | poison (pa : Nat)
  deriving DecidableEq, Repr

/-- A result in flight (07 R135, 18 R342): `due` is the issue cycle in which it lands, `iss` the one in which it
issued, `seq` numbers it among the core's. -/
structure Pend where
  due : Nat
  iss : Nat
  seq : Nat
  dest : Dest
  val : Vec
  latch : Option (BitVec 3)
  efl : BitVec 6
  rq : Bool                     -- an entry of the return queue
  st : RqSt                     -- its data, fault or poison
  va : Word
  deriving DecidableEq, Repr

/-- A bank result in flight: bank, elements (index, value), flags, HR element (10 R223 to R225). -/
structure BankPend where
  due : Nat
  iss : Nat
  bank : Nat
  elems : List (Nat × Word)
  mask : Word                  -- bits of each element that are replaced
  efl : BitVec 6
  deriving DecidableEq, Repr

/-- A partial of a K-step (10 R215 to R217). -/
inductive Partial where
  | zero (neg : Bool) | fin (n q : Int) | inf (neg : Bool) | nan
  deriving DecidableEq, Repr

/-- A matrix operation in flight (10 R226, R227): its operands, the steps whose operands are read, their partials. -/
structure MxOp where
  iss : Nat                    -- issue cycle
  acb : Nat
  steps : Nat
  prof : Nat
  op : MmaOp
  aAddr : Nat
  bAddr : Nat
  sAddr : Nat
  read : List (List (List Partial))   -- per step read, per row i, per column j
  rfl : BitVec 6               -- flags of the steps read
  poison : Option Nat
  acc : Nat                    -- steps that stand accumulated in the banks already (10 R227); `read` holds those after them
  hr : Option Nat              -- 256 times the bank of the tile plus the element, of the first guard that overflowed in those
  deriving DecidableEq, Repr

/-- A write made at the end of the issue cycle of its bundle (08 R174, 13 R269, 18 R352, 06 R119). -/
inductive BWrite where
  | dead (code : Nat)
  | sys (num : Nat) (v : Word)
  | spill (off len : Nat) (v : Vec)
  | tf (word : Nat) (v : Word)
  | alloc (bank n : Nat) | free (bank n : Nat)
  deriving DecidableEq, Repr

/-- An entry of the loop-index stack (07 R144). -/
structure LoopEnt where
  ix : BitVec 32
  count : BitVec 32
  start : Nat
  end_ : Nat
  deriving DecidableEq, Repr

/-- A pending wait (08 R161). -/
inductive Wait where
  | tc (v : Word)
  | ev (mask : BitVec 16)
  | ctr (va : Word) (pa : Option Nat) (fd : BitVec 3)
  deriving DecidableEq, Repr

/-- What the branch slot of the bundle being issued will do at its end (08 R157 to R165). -/
inductive BrAct where
  | none
  | jump (t : Nat) | call (t : Nat) | ret
  | loop (e : LoopEnt) | loopSkip (e : Nat)
  | lexit | exit | wait (w : Wait) | trap (code : BitVec 16) | rett | halt
  deriving DecidableEq, Repr

/-- Operations of the atomics (13 R273). -/
inductive AtKind where
  | add | min | max | cas | swp
  deriving DecidableEq, Repr

/-- What a page request was sent for (11 R249). -/
inductive PageFor where
  | core                        -- an access for which its core is frozen
  | load (id : Nat)             -- a load in the return queue, by its request
  | table                       -- a condition of the dependency table (07 R149)
  | lc (rid : Nat)              -- a read of the LC for a launch (02 R37)
  | mon (die : Nat)             -- a read of a monitor image (18 R348)
  | eng (id : Nat)              -- a request of an engine
  | share (k b : Nat)           -- a read or a copy-out of an RBD for a bucket (22 R415, R416)
  deriving DecidableEq, Repr

/-- A post to a JCB by the hardware (18 R350, 22 R412). -/
inductive JPost where
  | completion | fail | cancel
  deriving DecidableEq, Repr

/-- What a request in flight asks (13, 16, 22). -/
inductive ReqK where
  | load (sgn : Bool)                             -- GLD, LDX; sign extension of a scalar
  | store (strong : Bool)
  | atomic (k : AtKind) (w64 sgn : Bool) (v c : Word)
  | gacc (slot : Nat)
  | cpost (target : Nat)
  | carrive (n : Word) (src : Nat)                -- 0 CNTA, 2 CPYS add
  | jdone | jraise (n : Nat) (late : Bool) | jflag (f : BitVec 6)
  | jpost (p : JPost) (f : BitVec 6)              -- a post that waits for its stack, from the die that `lidx` names
  | event (targets : List Nat) (mask : BitVec 16)
  | lnch | cancel (token : Nat)
  | tagnew (parent quota : Nat) | tagret (t : Nat) | tagq (t : Nat)
  | bkdef
  | page (write : Bool) (e : Engine) (why : PageFor)  -- a PRI page request
  deriving DecidableEq, Repr

/-- A request in flight between agents, under its number in `State.reqs` (03 R43, R54). -/
structure Req where
  k : ReqK
  core : Nat
  rid : Option Nat
  lidx : Nat
  tag : Nat
  owner : Nat
  zero : Bool                  -- the window's policy is ZERO
  va : Word
  pa : Nat
  size : Nat
  data : Vec
  pend : Nat                   -- the result it answers
  pos : Nat                    -- code position of its bundle
  iss : Nat                    -- issue cycle of its bundle
  gen : BitVec 16              -- GEN of its owner tag when it was made (18 R366)
  tc : Nat                     -- when it left
  done : Bool
  left : Bool := true          -- its cycle has matched, in paired mode (07 R152)
  deriving DecidableEq, Repr

/-- An entry of the store-withholding buffer (20 R381): a write to a scratch address, with the bytes it writes and, of a vector store,
the entry that a FIFO slice would take (11 R241), and the TC of its issue (11 R242); or a request. -/
inductive SbEnt where
  | scratch (addr : Nat) (bytes : List (Nat × Byte)) (vec : Option Vec) (tc : Nat)
  | req (r : Req)
  deriving DecidableEq, Repr

/-- A sleeve (13 R282). -/
structure Sleeve where
  src : Word
  sstride : Word
  ring : Nat
  rstride : Nat
  rowlen : Nat
  slots : Nat
  total : Nat
  first : Nat                   -- FIRST, rows fetched at once
  head : Nat
  next : Nat
  filled : List Nat             -- rows filled and not retired
  fault : Bool
  lost : List (Nat × Nat)       -- rows that a faulted fill will never fill, with its cause detail (13 R283)
  deriving DecidableEq, Repr

/-- A stitching instruction, with its operands as read at issue (20 R380). -/
inductive StitchOp where
  | slset (n : BitVec 3) (sl : Sleeve)           -- `next` is the number of rows fetched at once
  | sladv (sd : BitVec 6) (n : BitVec 3) (rows : Nat)
  | slmode (mask : BitVec 32) (mode : SliceMode) (tc : Nat)   -- the core cycle in which it issued (13 R285)
  | lnch (addr : Word)
  | cancel (token : Nat)
  | tagnew (sd : BitVec 6) (parent quota : Nat)
  | tagret (t : Nat)
  | bkdef (sd : BitVec 6) (addr : Word)
  | push (sd : BitVec 6) (src desc : Word) (n : Nat)
  | bkdone
  deriving DecidableEq, Repr

/-- Why a core drains (20 R380, R383, 08 R160). -/
inductive Drain where
  | stitch (op : Option StitchOp)
  | implicit (wide : Bool)       -- before a bundle, or one that writes more than 32 banks
  | exit
  deriving DecidableEq, Repr

/-- An operation on which the whole core stalls until a step ends it (07 R134). -/
inductive CoreOp where
  | access (r : Req) (xl : Bool)               -- an access of the bundle just issued, translated or not, not yet sent
  | strong (req : Nat)                         -- strong store, waiting for its acknowledgement
  | atomic (req : Nat)
  | ctld (va : Word)
  | phase (sc : Scope) | fence (a b : AccClass)
  | act (o : StitchOp)                         -- a stitching instruction that waits to act (R380 step 3)
  | slot (i : Instr)                           -- one slot, to be performed alone (18 R353 PEND)
  | switch (mask : BitVec 32) (mode : SliceMode) (before tc : Nat)  -- SLMODE issued at tc, waiting for requests numbered below
  | answer (req : Nat) (sd : BitVec 6)         -- LNCH, TAGNEW, TAGRET, BKDEF: the request's answer
  | bkdone                                     -- the PHASE.PACKAGE of a BKDONE
  deriving DecidableEq, Repr

/-- Phase of a core. -/
inductive Phase where
  | idle                        -- no context, or no task left
  | table                       -- waiting for an eligible task (07 R149)
  | run
  | sleep (w : Wait)
  | drain (d : Drain)
  | ended                       -- the context has stopped
  deriving DecidableEq, Repr

/-- A cause held until a boundary takes it (18 R358). -/
inductive PCause where
  | badtgt (t : Nat)
  | weak (t : TrapInfo) (r : Req)
  | hr (detail : BitVec 32)
  | promise (seq : Nat) (detail : BitVec 32)
  | overarr (detail : BitVec 32)
  | swtrap (code : BitVec 16)
  | opFault (t : TrapInfo) (r : Req)             -- a fault of the strong store, atomic or wait just issued
  | intr (detail : BitVec 32)
  | nf (handle : BitVec 32)
  deriving DecidableEq, Repr

/-- What a monitor freeze keeps beside the frame (18 R342, R349). -/
structure Mon where
  kic : Nat                     -- the kernel's issue cycle
  rq : List Pend                -- the return queue, which stays in the core
  store : Option Req            -- the weak store whose fault was taken
  image : Nat                   -- code copy of the monitor that runs
  op : Option CoreOp            -- what the kernel stalls on beside the cause taken (R358: later ranks stay pending)
  await : List Nat
  release : Nat
  back : Phase                  -- where a POSKIND of NEXT goes on: a drain, the dependency table, or the bundles
  next : Nat                    -- the kernel's next position, and the position of the bundle it last issued
  last : Nat
  tested : Bool                 -- the end test of that bundle has run (07 R144)
  causes : List PCause          -- the kernel's own pending causes of rank 2 (R358)
  pseq : Nat                    -- the result that a held atomic answers
  siss : Nat                    -- the issue cycle of the store whose fault was taken (13 R265)
  marks : List Nat              -- the kernel's registers whose entry fails its check (20 R379)
  held : Option PCause          -- the cause of rank 6, 7 or 10 that the freeze holds (R359)
  bad : Option Nat              -- a result it holds that differs on the follower, by its landing cycle (07 R152)
  deriving DecidableEq, Repr

/-- The shadow of the last stitch point (20 R382). -/
structure Shadow where
  s : Tbl Word
  v : Tbl Vec
  p : Tbl (BitVec 32)
  f : Tbl Bool
  dead : List Nat
  loops : List LoopEnt
  ras : List Nat
  flags : BitVec 6
  seed0 : Lane
  seed1 : Lane
  mask : BitVec 16
  alloc : List Nat
  pos : Nat
  ic : Nat
  /-- Accumulator banks and spill units as first written since the stitch point. -/
  banks : Tbl (List Word)
  spill : Tbl (List Byte)
  bad : List Nat                -- field codes whose value failed its check when the shadow took it (20 R379)
  badSpill : List Nat           -- its poisoned spill units
  deriving DecidableEq, Repr

/-- A mailbox of a switched-out context (18 R365). -/
structure Mailbox where
  ev : BitVec 16
  ovfl : Bool
  ents : List (Nat × Word)
  deriving DecidableEq, Repr

/-- A switch-out in progress (18 R361). -/
inductive OutSt where
  | no
  | requested (tc : Nat)
  | saving (tc : Nat)          -- taken at its boundary, waiting for step 2 and 3 of R361
  deriving DecidableEq, Repr

/-- A tagged window (03 R41). -/
structure Window where
  base : Nat
  size : Nat
  zero : Bool
  deriving DecidableEq, Repr

/-- A completion share on an NMV core (22 R415). -/
structure Share where
  stack : Nat
  bucket : Nat
  ident : Nat                  -- the bucket's identity: its number may be given to another
  w : Nat
  ways : Nat
  first : Nat
  last : Nat
  done : Bool
  flags : BitVec 6
  windows : List Window        -- its window table, as read at its start
  deriving DecidableEq, Repr

/-- How the last core cycle of a core ended (05 R101): in no whole-core stall, in one that a cancellation ends at once, or in
another. -/
inductive StallK where
  | none | soft | hard
  deriving DecidableEq, Repr

/-- One core: a compute core or an NMV core. -/
structure Core where
  -- context (05 R95, 06 R118)
  rid : Option Nat
  share : Option Share
  lidx : Nat
  ctag : BitVec 12
  token : BitVec 32
  code : Nat                    -- key of its code copy
  strict : Bool
  paired : Bool
  nmv : Bool
  follow : Bool                 -- FOLLOW of SYS.MODE (07 R141)
  defprof : Nat
  quota : Nat
  ldecl : Nat                   -- declared levels L
  -- registers (06 R117 to R121)
  s : Tbl Word
  v : Tbl Vec
  p : Tbl (BitVec 32)
  f : Tbl Bool
  dead : List Nat               -- field codes of dead registers
  k : Tbl Vec
  stale : List Nat
  seed0 : Lane
  seed1 : Lane
  flags : BitVec 6
  mask : BitVec 16
  ev : BitVec 16
  cause : Word
  tfbase : Word
  task : BitVec 4
  -- control
  phase : Phase
  pos : Nat                     -- position of the bundle about to issue
  lastPos : Nat                 -- position of the bundle last issued
  ic : Nat                      -- issue cycle about to begin
  seq : Nat                     -- results issued so far
  loops : List LoopEnt          -- entry 0 first
  ras : List Nat                -- oldest first
  pend : List Pend
  bpend : List BankPend
  cbuf : List Nat               -- lines of the code buffer present
  -- the bundle being issued
  len : Nat
  prof : Nat
  stitchBit : Bool
  br : BrAct
  bound : List BWrite
  release : Nat                 -- entries at the head of the buffer that are leaving it
  stitchOp : Option StitchOp
  -- whole-core stalls and freezes
  op : Option CoreOp
  await : List Nat              -- page requests of a waiting freeze
  causes : List PCause
  mon : Option Mon
  out : OutSt
  mailbox : Mailbox
  cancelTc : Option Nat
  stopNext : Bool               -- a cancelled context that stops at its next boundary
  stall : StallK
  loopDue : Bool                -- the end test of 07 R144 is due for the bundle last issued
  lastIssue : Nat               -- TC of the last kernel bundle (18 R367)
  -- spill, accumulators, matrix engine
  spill : Memory
  banks : Tbl (List Word)
  alloc : List Nat
  mx : List MxOp
  mxBase : Option (Tbl (List Word) × List MxOp)  -- while the sequencer stands: banks and operations as the engine goes on with them (10 R227)
  -- stores and stitches
  sbuf : List SbEnt
  shadow : Shadow
  rewound : Bool                -- a rewind since the last stitch point
  window : Bool                 -- in the windows of R380 step 3 and R383
  after : Bool                  -- an implicit stitch follows the bundle (R383)
  exiting : Bool                -- EXIT stands in the bundle whose stitching instruction acts (08 R160)
  seamRew : Bool                -- rewinding for seams (16 R332)
  seamWait : Bool               -- and asleep before its next seam, which it has reached (16 R333)
  evCleared : BitVec 16
  bad : List Nat                -- field codes whose entry fails its check (20 R379)
  badSpill : List Nat           -- poisoned 128-byte spill units
  badLocal : List Nat           -- poisoned 128-byte units of an NMV core's local store
  -- tasks (07 R147)
  tasks : Tbl Nat
  running : Option Nat
  todo : List Nat               -- points given and not yet in the table
  asked : Bool                  -- a DYN range has been asked for
  -- signals and engines
  posted : List Nat
  pseq : Nat
  sleeves : Tbl Sleeve
  gfr : Tbl (BitVec 128)        -- gather fault records, by promise sequence number (12 R261)
  -- waits and acquires
  waitCame : Bool               -- the counter of the pending WAITC has come to hold (16 R313)
  came : List (Nat × Nat)       -- counters that came to hold for the table: point and physical address (16 R313)
  tfail : List Nat              -- pages of the table's conditions whose request was answered with failure (07 R149)
  pairBad : Option Nat          -- issue cycle in which a write landed that differs on the follower (07 R152)
  -- NMV
  local_ : Memory
  ct : Tbl Lane
  ctValid : Bool
  ctFail : Nat
  deriving DecidableEq, Repr

/-- A context in a save slot (18 R362): the core it left, and what the slot's bytes hold of it. -/
structure Saved where
  core : Nat
  k : Core
  mailDue : Bool                -- entries of the mailbox that the slot's bytes do not show yet, its stack being shut (12 R258)
  deriving DecidableEq, Repr

/-- The follower of a pair (07 R151): its state, and the leader's states of the issue cycles that it has still to issue, oldest first. -/
structure Follower where
  k : Core
  lag : List Core
  deriving DecidableEq, Repr

/-- A core as reset leaves it; 02 R35 and R36 give what a launch's start makes of it (log 5). -/
def Core.reset : Core where
  rid := none
  share := none
  lidx := 0
  ctag := 0
  token := 0
  code := 0
  strict := false
  paired := false
  nmv := false
  follow := false
  defprof := 1
  quota := 0
  ldecl := 0
  s := []
  v := []
  p := []
  f := []
  dead := []
  k := []
  stale := [0, 1, 2, 3, 4, 5, 6, 7]
  seed0 := 0
  seed1 := 0
  flags := 0
  mask := 0
  ev := 0
  cause := 0
  tfbase := 0x6000
  task := 0
  phase := .idle
  pos := 0
  lastPos := 0
  ic := 0
  seq := 0
  loops := []
  ras := []
  pend := []
  bpend := []
  cbuf := []
  len := 1
  prof := 1
  stitchBit := false
  br := .none
  bound := []
  release := 0
  stitchOp := none
  op := none
  await := []
  causes := []
  mon := none
  out := .no
  mailbox := ⟨0, false, []⟩
  cancelTc := none
  stopNext := false
  stall := .none
  loopDue := false
  lastIssue := 0
  spill := []
  banks := []
  alloc := []
  mx := []
  mxBase := none
  sbuf := []
  shadow := ⟨[], [], [], [], [], [], [], 0, 0, 0, 0, [], 0, 0, [], [], [], []⟩
  rewound := false
  window := false
  after := false
  exiting := false
  seamRew := false
  seamWait := false
  evCleared := 0
  bad := []
  badSpill := []
  badLocal := []
  tasks := []
  running := none
  todo := []
  asked := false
  posted := []
  pseq := 0
  sleeves := []
  gfr := []
  waitCame := false
  came := []
  tfail := []
  pairBad := none
  local_ := []
  ct := []
  ctValid := false
  ctFail := 0

/-- A kernel image as the LC holds it for the cores: the code copy and what its header fixes (02 R26, 06 R103). -/
structure Code where
  pats : List BundleBits
  hw : List Half
  starts : List Nat
  restarts : List (Nat × Nat × Nat)
  entry : Nat
  defprof : Nat
  attr : BitVec 8
  nestlev : Nat
  quota : Nat
  seed0 : Lane
  seed1 : Lane
  stack : Nat                  -- stack whose code reserve holds it
  deriving DecidableEq, Repr

/-- A launch record (02 R30). -/
structure LRec where
  image : Word
  ctrl : BitVec 32
  rect : BitVec 32
  tag : BitVec 16
  counts : BitVec 16
  token : BitVec 32
  seed0 : Lane
  seed1 : Lane
  donejcb : Word
  waitjcb : List Word
  twtab : Word
  args : Word
  arglen : BitVec 32
  levels : List (Nat × Nat)    -- trip count, walk position
  sliceinit : Word
  deriving DecidableEq, Repr

/-- Where a launch stands (05). -/
inductive LState where
  | held                       -- at the limit of R83
  | accepting                  -- the LC's acceptance reads are under way
  | waiting | queued
  | placing                    -- position chosen, placement reads under way
  | placed
  | preempting | switchedOut
  | stopping (failed : Bool)   -- cancelled, or failing: contexts are stopping
  deriving DecidableEq, Repr

/-- A launch known to the package (05). -/
structure Launch where
  state : LState
  addr : Word                  -- its record
  die : Nat                    -- the LC that accepts it
  porttag : Nat                -- the tag of the port, for a submission at a port
  issuer : Option Nat          -- the core of an LNCH, and its request
  req : Nat
  recd : LRec
  header : List Byte           -- the 256-byte image header read at acceptance (02 R37)
  bounds : List (Nat × Nat)
  windows : List Window
  jdone : Option Nat           -- physical address of DONEJCB
  jwait : List Nat
  prio : Nat
  placedPrio : Nat
  qtc : Nat                    -- TC it entered its queue
  outTc : Nat                  -- TC at which it was told to leave its cores (18 R363)
  order : Nat                  -- its place: acceptance, queue, placement
  x0 : Nat
  y0 : Nat
  master : Nat
  args : List Byte             -- the argument block, as read at placement
  points : Nat                 -- T
  given : Nat                  -- DYN: the next point not given
  ranges : List (List Nat)     -- ranges handed out before any other (R99)
  lost : List (Nat × List Nat) -- DET: unfinished remainders of lost slices
  hand : List (Nat × Nat)      -- (point, logical core) given and not finished
  done : List Nat              -- points whose completion is not yet held by every distributor
  nfin : Nat                   -- points finished
  flags : BitVec 6             -- flags of contexts that have left their last point
  slots : List (Nat × Nat)     -- save slots: logical core, or 4096 + 64 cluster + (0 header, 1 + slice), and slot
  clusters : List Nat          -- clusters still to save
  resume : Bool                -- it was pre-empted and keeps its origin
  acc : Nat                    -- its place among the launches accepted
  evict : Option (List (Nat × Nat))  -- a pre-emption that waits for its start, with the slots reserved for it
  onMesh : Bool                -- it occupies its rectangle
  code : Nat                   -- key of its code copy, 0 for none
  failed : List Nat            -- pages of its LC's reads whose request was answered with failure
  deriving DecidableEq, Repr

/-- Kinds of promise-bearing request, the ENG of R281. -/
inductive EngK where
  | copy (rows rowlen : Nat) (dstr sstr : Word) (ctr : Option Word)
  | copys
  | fill (n : BitVec 3) (rows need : List Nat)  -- rows still to fill, rows the promise waits for
  | gather (spt count : Nat)
  | push (peer rtag : Nat) (rcnt radd : Word)
  deriving DecidableEq, Repr

/-- A request of a copy engine, sleeve, gather unit or PUSH (13 R277 to R284, 22 R420). -/
structure Eng where
  k : EngK
  eng : Nat                    -- 0 CPY, 1 CPYS, 2 sleeve, 3 GTH, 4 PUSH
  core : Nat
  rid : Option Nat
  seqno : Nat                  -- promise sequence number
  promise : Nat                -- the promise, a TC
  dst : Word
  src : Word
  srcTag : Nat
  srcZero : Bool
  dstTag : Nat
  dstZero : Bool
  wins : List Window           -- the windows in effect at its issue (03 R43)
  owner : Nat
  iss : Nat                    -- issue cycle of its bundle
  broken : Bool                -- LATE has been raised
  page : Option (Nat × PReason)
  prog : Nat                   -- units already appended to a FIFO slice
  stack : Nat                  -- gathers: the stack that serves it; PUSH: its length
  deriving DecidableEq, Repr

/-- An entry of a FIFO slice (11 R241), with its poison mark, the TC of its append, the place of its writer among those of one core
cycle, and its owner tag (03 R54). -/
structure FifoEnt where
  data : Vec
  poison : Bool
  tc : Nat
  by_ : Nat
  owner : Nat
  deriving DecidableEq, Repr

/-- One slice of a cluster (11 R238). -/
structure Slice where
  mode : SliceMode
  fifo : List FifoEnt          -- oldest first
  deriving DecidableEq, Repr

/-- One cluster of four cores: 32 slices, the scratch window, poison marks of its 128-byte units. -/
structure Cluster where
  slices : Tbl Slice
  mem : Memory
  owner : Tbl Nat              -- last writer's tag, by 128-byte unit (03 R54)
  poison : List Nat
  deriving DecidableEq, Repr

/-- State of a die for containment (20 R396). -/
inductive DieSt where
  | live | fencing | resetting | held
  deriving DecidableEq, Repr

/-- One die: compute dies 0 to 63, fabric dies 64 to 67. -/
structure Die where
  -- launch port (05 R81, 18 R348)
  seq : BitVec 32
  monResult : BitVec 8
  monitor : Option Nat         -- code key of the installed monitor
  monAddr : Word
  monDigest : List Byte        -- digest of the image of the installed monitor (26 R455)
  monFailed : List Nat         -- pages of an install's reads whose request was answered with failure
  wdlimit : Word
  wdsave : Word
  -- containment (20 R387, R396)
  st : DieSt
  fences : Nat
  corrected : BitVec 32
  missed : Nat
  beat : Nat                   -- TC of its last heartbeat, or of the last one missed
  unheld : Bool                -- software has cleared HOLD: steps 6 to 8 of R387 run
  lost : Bool                  -- quiesced: its contexts have ended, salvage runs
  refused : Tbl Nat            -- requests answered DIEFENCED, by requesting die
  recSeq : BitVec 32           -- records of the die
  -- cache (11 R244, R245)
  guest : Tbl (List (Byte × Bool))  -- guest and tagged read-only lines with their poison marks, by tag and line
  dirty : List Nat             -- lines held writable, all counted dirty
  mhz : Nat
  temp : Nat
  auditBad : List Nat          -- links with a discrepancy at the last audit
  drops : List (Nat × Nat × List Nat)  -- TAGDROP: tag and place, TC of the last record, TCs of the drops of one period
  deriving DecidableEq, Repr

/-- Thermal states of a stack (12 R257). -/
inductive Therm where
  | normal | warm | draining | selfref
  deriving DecidableEq, Repr

/-- States of a bucket record (22 R413). -/
inductive BkSt where
  | open_ | running | done | failed | nonfinite
  deriving DecidableEq, Repr

/-- Orders of addition (22 R408). -/
inductive BkOrder where
  | slot | tree | arrival
  deriving DecidableEq, Repr

/-- A contribution (22 R407). -/
structure Contrib where
  slot : Nat
  data : Vec
  core : Nat
  rid : Option Nat
  token : BitVec 32
  owner : Nat
  replied : Bool := true  -- its reply has gone: STAGED or APPLIED (22 R411)
  peer : Option (Nat × Nat × Nat) := none  -- the package, launch and core of a remote sender (25 R448)
  deriving DecidableEq, Repr

/-- One chunk of a bucket (22 R405, R407, R408). -/
structure Chunk where
  next : Nat
  staged : List Contrib        -- rising slots
  bitmap : List Nat            -- ARRIVAL: slots counted
  stack : List (Nat × List Lane)  -- TREE: level and sums, top first
  napplied : Nat
  complete : Bool
  deriving DecidableEq, Repr

/-- A bucket record (22 R404 to R416). -/
structure Bucket where
  ident : Nat                  -- an identity of its own, which its number is not once it is given again (22 R412)
  st : BkSt
  tag : Nat
  zero : Bool                  -- policy of the window that holds BASE
  base : Word
  count : Nat
  contrib : Nat
  order : BkOrder
  fp32 : Bool
  copyout : Bool
  pages : List Nat             -- physical addresses of the sums' 4 KiB pages, in order
  jcb : Option Nat
  action : Word
  atag : Nat
  ways : Nat
  nwin : Nat
  seed0 : Lane
  seed1 : Lane
  twtab : Word
  argp : Word
  windows : List Window
  chunks : Tbl Chunk
  flags : BitVec 6
  shareFlags : BitVec 6
  failed : List Nat            -- pages of its RBD's reads and copies whose request was answered with failure
  sharesDone : List Nat
  dups : BitVec 32
  retries : BitVec 16
  applied : BitVec 32
  deriving DecidableEq, Repr

/-- One stack and its RBD (12, 20 R392). -/
structure Stack where
  deadG : List Nat             -- dead 64 KiB granules of the stack
  cells : Tbl (List Byte)      -- cell directory: tag and granule to its 1,024 bytes
  chunkOf : Tbl Nat            -- cell-pool chunks in use: chunk to tag
  place : Tbl Nat              -- directory entry to its place in the pool (1 KiB units)
  threshold : Nat
  alerts : BitVec 32
  rows : Tbl Nat               -- activation counters, by channel, bank and row
  closed : Tbl Nat             -- banks closed by an alert and the TC of the alert
  therm : Therm
  temp : Nat
  srTc : Nat                   -- TC at which it entered SELFREF
  buckets : Tbl Bucket
  stage : Nat                  -- general staging entries in use
  shares : List (Nat × Nat)    -- queued shares: bucket, w
  copies : List Nat            -- buckets whose copy-out runs
  resetting : Bool
  killed : List Nat             -- tags killed by the reset under way
  poison : List Nat            -- poisoned 128-byte units (physical unit numbers)
  cellPoison : List Nat        -- poisoned units of cells: directory key times 8 plus unit
  owner : Tbl Nat              -- last writer's tag of untagged units written by a tagged context (03 R54)
  codeUse : Tbl Nat            -- code copies held here: code key to bytes
  corrected : BitVec 32        -- corrected errors on the RBD (20 R396)
  recSeq : BitVec 32
  drops : List (Nat × Nat × List Nat)
  deriving DecidableEq, Repr

/-- State of a tag (03 R50). -/
inductive TagSt where
  | free | live | held | draining
  deriving DecidableEq, Repr

/-- An entry of the tag table (03 R50). -/
structure TagEnt where
  st : TagSt
  depth : Nat
  parent : Nat
  quota : Nat
  gen : BitVec 16
  deriving DecidableEq, Repr

/-- A trap record (18 R355). -/
structure TRec where
  w0 : Word
  w1 : Word
  addr : Word
  tc : Word
  deriving DecidableEq, Repr

/-- One lane's ring (18 R356). -/
structure Ring where
  base : Word
  ctl : Word
  head : BitVec 32
  done : BitVec 32
  waiting : List TRec          -- records formed and not yet written
  deriving DecidableEq, Repr

/-- A format window (04 R73). -/
structure FWin where
  ctrl : BitVec 32
  regs : List Word             -- the entry's other 8-byte words
  deriving DecidableEq, Repr

/-- One answer in a translation cache: a leaf, or the fault the IOMMU reported. -/
structure XEnt where
  va : Nat
  leaf : Option Leaf
  deriving DecidableEq, Repr

/-- State of a Salder port (25 R445). -/
inductive PortSt where
  | down | training | up | failed
  deriving DecidableEq, Repr

/-- A Salder port (25 R445, R446). -/
structure Port where
  st : PortSt
  ctl : BitVec 32              -- the fields a write sets
  partner : Nat
  recorded : Bool
  replays : BitVec 32
  custody : List Nat
  deriving DecidableEq, Repr

/-- The host complex die: the blocks of the capability list that hold plain registers, by block and offset. -/
structure Hxd where
  tags : Tbl TagEnt
  tgaLimit : Nat
  tagWait : List Nat           -- waiting TAGNEW requests, in order
  paAging : Word
  saveBase : Word
  saveSlots : Nat
  slotsUsed : List Nat
  order : Nat                  -- next number of acceptance, queue and placement order
  laneH : Ring
  laneN : Ring
  recSeq : BitVec 32
  fw : Tbl FWin
  spt : Tbl FWin
  auditLog2 : Nat
  audits : BitVec 32
  auditTc : Nat                -- TC of the last permit audit
  pkgFailed : Bool
  ports : Tbl Port
  pkgid : Word
  regs : Tbl Word              -- registers with no behaviour of their own, by block and offset (25 R459)
  pushes : Tbl (List Nat)      -- identities of the last 4,096 pushes, by source package (25 R448)
  notices : List (Nat × Nat × Nat × Nat)  -- NF notices sent through the aperture: package, launch, core, handle (22 R411)
  gaccReplies : List (Nat × Nat × Nat × Nat × Nat)  -- replies to accumulate-writes of peers: package, launch, core, slot, answer (25 R448)
  pushReplies : List (Nat × Nat × Option Nat)  -- replies to pushes of peers: package, identity, reason of a fault (25 R447)
  messages : List (Option Nat × Nat)  -- messages sent, newest first: address and identity, or an MSI-X vector (25 R442, R443)
  deriving DecidableEq, Repr

/-- States of the package (26 R449). -/
inductive PkgSt where
  | off | starting (step : Nat) | running | startFail | tripped
  deriving DecidableEq, Repr

/-- What an ATTEST report holds (26 R455): the nonce, the digests of the firmware images and of the monitors, MG_SLOT, the CT_DIE words. -/
structure Report where
  nonce : List Byte
  firmware : List (List Byte)
  monitors : List (List Byte)
  slot : Nat
  dies : List Nat
  deriving DecidableEq, Repr

/-- The management island (26). -/
structure Mgmt where
  st : PkgSt
  plimit : Nat
  slot : Nat                   -- firmware slot running
  selected : Nat
  fwBytes : Tbl (List Byte)    -- image in each slot
  fwVersion : Tbl Nat
  minVersion : Nat
  endpoint : Bool
  hport : Nat
  mbox : List Byte
  cmd : Word
  jnow : List Word
  jprev : List Word
  events : Tbl (Word × Word × Word)  -- log entries, by index modulo 4,096
  evhead : BitVec 32
  evdone : BitVec 32
  sensors : Tbl Word
  fails : Tbl Nat              -- failure counts, by unit
  connMbox : List Byte         -- MG_MBOX of the connector's mailbox (26 R449)
  connCmd : Word               -- MG_CMD of the connector's mailbox
  connFirst : Bool             -- the connector's doorbell came before the other mailbox's (26 R449)
  pcieDown : List Nat          -- PCI Express ports that stay down for this start (26 R451)
  altered : Bool               -- this start uses the other slot after two failed ones
  reports : Nat
  report : Option Report       -- what the last report holds (26 R455)
  clockTc : Nat                -- TC of the last step of the clocks
  limit : Nat                  -- current limit of the supply, 0 none
  md : Bool                    -- the module is a DH64-MD, with its supply sensor and connector (26 R449, R452, R456)
  power : Nat                  -- package power as last sampled valid (26 R453)
  powerSum : Nat               -- its sum over the TC cycles since the last step of the clocks
  powerTc : Nat                -- TC up to which the sum runs
  deriving DecidableEq, Repr

/-- The package. -/
structure State where
  -- the model's own fields (log 1, log 6)
  agenda : List Instr
  inflight : List Instr
  turn : Bool
  cur : Nat
  active : List Nat            -- cores that have a context, in order
  fresh : Nat
  -- time
  tc : Nat
  -- agents
  cores : Tbl Core
  followers : Tbl Follower      -- by core, while its pair has a context (07 R151)
  saved : Tbl Saved             -- switched-out contexts, by save slot
  clusters : Tbl Cluster
  dies : Tbl Die
  stks : Tbl Stack
  hxd : Hxd
  mgmt : Mgmt
  -- memory at its coherence points
  mem : Memory
  codes : Tbl Code
  nextCode : Nat
  -- work
  launches : Tbl Launch
  nextRid : Nat
  reqs : Tbl Req
  engs : Tbl Eng
  nextId : Nat
  -- translation
  iommu : List Leaf
  roots : Tbl ProcCtx          -- root page table of each PASID, and the leaves granted by their U bit (11 R246, 25 R440)
  xcache : Tbl (List XEnt)
  invalidated : Nat            -- ATS Invalidation Requests completed (11 R247)
  -- what the outside was last answered (15 R305, 25 R444): bytes with their poison marks, none for an access refused
  answer : Option (List (Byte × Bool))
  deriving DecidableEq, Repr

/-- A cluster at reset: every slice CACHE (11 R238). -/
def Cluster.reset : Cluster := ⟨[], [], [], []⟩

/-- A slice at reset (11 R238). -/
def Slice.reset : Slice := ⟨.cache, []⟩

/-- A die at reset (18 R348, 01 R23). -/
def Die.reset : Die where
  seq := 0
  monResult := 0
  monitor := none
  monAddr := 0
  monDigest := []
  monFailed := []
  wdlimit := 0x0001_0000_0000
  wdsave := 0x0010_0000
  st := .live
  fences := 0
  corrected := 0
  missed := 0
  beat := 0
  unheld := false
  lost := false
  refused := []
  recSeq := 0
  guest := []
  dirty := []
  mhz := 1800
  temp := 0
  auditBad := []
  drops := []

/-- A stack at reset (12 R252, R254, 22 R413). -/
def Stack.reset : Stack where
  deadG := []
  cells := []
  chunkOf := []
  place := []
  threshold := 4096
  alerts := 0
  rows := []
  closed := []
  therm := .normal
  temp := 0
  srTc := 0
  buckets := []
  stage := 0
  shares := []
  copies := []
  resetting := false
  killed := []
  poison := []
  cellPoison := []
  owner := []
  codeUse := []
  corrected := 0
  recSeq := 0
  drops := []

/-- A tag entry at reset (03 R50; GEN log 5). -/
def TagEnt.reset : TagEnt := ⟨.free, 0, 0, 0, 0⟩

/-- A lane at reset (18 R356). -/
def Ring.reset : Ring := ⟨0, 0, 0, 0, []⟩

/-- A Salder port at reset (26 R450). -/
def Port.reset : Port := ⟨.down, 0, 0, false, 0, []⟩

/-- The HXD at reset (03 R51, 05 R84, 18 R356, 20 R396). -/
def Hxd.reset : Hxd where
  tags := []
  tgaLimit := 4094
  tagWait := []
  paAging := 0x0100_0000
  saveBase := 0
  saveSlots := 0
  slotsUsed := []
  order := 0
  laneH := Ring.reset
  laneN := Ring.reset
  recSeq := 0
  fw := []
  spt := []
  auditLog2 := 28
  audits := 0
  auditTc := 0
  pkgFailed := false
  ports := []
  pkgid := 0
  regs := []
  pushes := []
  notices := []
  gaccReplies := []
  pushReplies := []
  messages := []

/-- The management island at reset (26 R449). -/
def Mgmt.reset : Mgmt where
  st := .off
  plimit := 12500
  slot := 0
  selected := 0
  fwBytes := []
  fwVersion := []
  minVersion := 0
  endpoint := false
  hport := 0
  mbox := []
  cmd := 0
  jnow := []
  jprev := []
  events := []
  evhead := 0
  evdone := 0
  sensors := []
  fails := []
  connMbox := []
  connCmd := 0
  connFirst := false
  pcieDown := []
  altered := false
  reports := 0
  report := none
  clockTc := 0
  limit := 0
  md := true
  power := 0
  powerSum := 0
  powerTc := 0

/-- The package right after reset. -/
def State.reset : State where
  agenda := []
  inflight := []
  turn := false
  cur := 0
  active := []
  fresh := 0
  tc := 0
  cores := []
  followers := []
  saved := []
  clusters := []
  dies := []
  stks := []
  hxd := Hxd.reset
  mgmt := Mgmt.reset
  mem := []
  codes := []
  nextCode := 1
  launches := []
  nextRid := 0
  reqs := []
  engs := []
  nextId := 0
  iommu := []
  roots := []
  xcache := []
  invalidated := 0
  answer := none

end Sys2Proof.Machine
end

