-- ==== Sys2Proof/Machine/Table.lean ====
section
/-! DEFINITION. Table.lean: tables, byte memories and byte order (00 R6): the one place where bytes become numbers. -/

namespace Sys2Proof.Machine

/-- The entry of key k, the first one. -/
def look {α : Type} : Tbl α → Nat → Option α
  | [], _ => none
  | (j, a) :: t, k => if j = k then some a else look t k

/-- The table without key k. -/
def del {α : Type} : Tbl α → Nat → Tbl α
  | [], _ => []
  | (j, a) :: t, k => if j = k then del t k else (j, a) :: del t k

/-- Insert a key before the first greater one. -/
def ins {α : Type} : Tbl α → Nat → α → Tbl α
  | [], k, a => [(k, a)]
  | (j, b) :: t, k, a => if k < j then (k, a) :: (j, b) :: t else (j, b) :: ins t k a

/-- The table with key k at a. -/
def put {α : Type} (t : Tbl α) (k : Nat) (a : α) : Tbl α := ins (del t k) k a

/-- Keys rise strictly from a bound on. -/
def risesFrom {α : Type} : Nat → Tbl α → Bool
  | _, [] => true
  | n, (j, _) :: t => decide (n ≤ j) && risesFrom (j + 1) t

/-- Keys rise strictly. -/
def rises {α : Type} (t : Tbl α) : Bool := risesFrom 0 t

/-- The canonical form of a byte memory: rising addresses, no entry equal to what an unlisted address reads as. -/
def Memory.wf (m : Memory) : Bool := rises m && m.all (fun c => c.2 != 0)

/-- Read one byte; an unlisted address reads 0 (log 3). -/
def Memory.get (m : Memory) (a : Nat) : Byte := (look m a).getD 0

/-- Write one byte, keeping the canonical form. -/
def Memory.set (m : Memory) (a : Nat) (b : Byte) : Memory := if b = 0 then del m a else put m a b

/-- n bytes from address a, lowest first. -/
def Memory.bytes (m : Memory) : Nat → Nat → List Byte
  | _, 0 => []
  | a, n + 1 => m.get a :: m.bytes (a + 1) n

/-- Write bytes from address a on. -/
def Memory.setBytes (m : Memory) : Nat → List Byte → Memory
  | _, [] => m
  | a, b :: bs => (m.set a b).setBytes (a + 1) bs

/-- Write n zeros from address a on. -/
def Memory.clear (m : Memory) (a n : Nat) : Memory := m.filter (fun c => decide (c.1 < a) || decide (a + n ≤ c.1))

/-- Little-endian value of bytes (00 R6). -/
def leNat : List Byte → Nat
  | [] => 0
  | b :: bs => b.toNat + 256 * leNat bs

/-- The low n bytes of a value, lowest first (00 R6). -/
def toBytes : Nat → Nat → List Byte
  | 0, _ => []
  | n + 1, v => BitVec.ofNat 8 v :: toBytes n (v / 256)

/-- An n-byte little-endian read. -/
def Memory.nat (m : Memory) (a n : Nat) : Nat := leNat (m.bytes a n)

/-- An n-byte little-endian write. -/
def Memory.setNat (m : Memory) (a n v : Nat) : Memory := m.setBytes a (toBytes n v)

/-- Bits [lo + w - 1 : lo] of a number. -/
def fld (n lo w : Nat) : Nat := n / 2 ^ lo % 2 ^ w

/-- One bit of a number. -/
def bit (n i : Nat) : Bool := n / 2 ^ i % 2 == 1

/-- Two's-complement reading of the low w bits. -/
def sx (n w : Nat) : Int := (BitVec.ofNat w n).toInt

/-- An integer taken modulo 2^64. -/
def wrap64 (i : Int) : Word := BitVec.ofInt 64 i

/-- The values of a table. -/
def vals {α : Type} (t : Tbl α) : List α := t.map Prod.snd

/-- Append unless present. -/
def addNew {α : Type} [DecidableEq α] (l : List α) (a : α) : List α := if l.contains a then l else l ++ [a]

/-- Without a value. -/
def without {α : Type} [DecidableEq α] (l : List α) (a : α) : List α := l.filter (fun x => decide (x ≠ a))

/-- n, n + 1, …, n + k - 1. -/
def upFrom : Nat → Nat → List Nat
  | _, 0 => []
  | n, k + 1 => n :: upFrom (n + 1) k

/-- Lane i of a vector (04 R57). -/
def lane (v : Vec) (i : Nat) : Lane := v.extractLsb' (32 * i) 32

/-- The lanes of a vector, lane 0 first. -/
def lanes (v : Vec) : List Lane := (upFrom 0 32).map (lane v)

/-- The number whose 32-bit digits are given, lowest first. -/
def digits32 : List Lane → Nat
  | [] => 0
  | l :: ls => l.toNat + 2 ^ 32 * digits32 ls

/-- The vector of 32 lanes. -/
def ofLanes (ls : List Lane) : Vec := BitVec.ofNat 1024 (digits32 ls)

/-- A vector of lanes made by index. -/
def vecOf (f : Nat → Lane) : Vec := ofLanes ((upFrom 0 32).map f)

/-- The 128 bytes of a vector, lane 0 lowest (04 R57). -/
def vecBytes (v : Vec) : List Byte := toBytes 128 v.toNat

/-- The vector of 128 bytes. -/
def bytesVec (bs : List Byte) : Vec := BitVec.ofNat 1024 (leNat bs)

end Sys2Proof.Machine
end

