-- ==== Sys2Proof/Machine/Access.lean ====
section
/-! DEFINITION. Access.lean: places of the package (01 R10 to R14), accessors of the state, records (18 R355). -/

namespace Sys2Proof.Machine

/-- Package coordinate of a compute core's number, which is 32 y + x (01 R12). -/
def coreX (c : Nat) : Nat := c % 32
/-- See `coreX`. -/
def coreY (c : Nat) : Nat := c / 32
/-- Core number at (x, y). -/
def coreAt (x y : Nat) : Nat := 32 * y + x
/-- Die of a compute core (01 R12). -/
def coreDie (c : Nat) : Nat := 8 * (coreY c / 8) + coreX c / 4
/-- Cluster within die (01 R12). -/
def coreClusterInDie (c : Nat) : Nat := 2 * (coreY c % 8 / 2) + coreX c % 4 / 2
/-- Core within cluster (01 R12). -/
def coreInCluster (c : Nat) : Nat := 2 * (coreY c % 2) + coreX c % 2
/-- Cluster of the package, 8 × die + cluster within die. -/
def coreCluster (c : Nat) : Nat := 8 * coreDie c + coreClusterInDie c
/-- Die of a cluster. -/
def clusterDie (k : Nat) : Nat := k / 8
/-- The four cores of a cluster, in order of core within cluster (01 R12). -/
def clusterCores (k : Nat) : List Nat :=
  let d := k / 8
  let x := 4 * (d % 8) + 2 * (k % 2)
  let y := 8 * (d / 8) + 2 * (k % 8 / 2)
  [coreAt x y, coreAt (x + 1) y, coreAt x (y + 1), coreAt (x + 1) (y + 1)]
/-- Number of NMV core n of stack k: 2,048 + 16 k + n. -/
def nmvCore (k n : Nat) : Nat := 2048 + 16 * k + n
/-- Whether a core number is an NMV core's. -/
def isNmv (c : Nat) : Bool := decide (2048 ≤ c)
/-- Stack of an NMV core. -/
def nmvStack (c : Nat) : Nat := (c - 2048) / 16
/-- Number of an NMV core on its stack. -/
def nmvNum (c : Nat) : Nat := (c - 2048) % 16
/-- Cell of a compute die (01 R14). -/
def dieCell (d : Nat) : Nat := d / 2
/-- Stack of a physical address below 2^42 (12 R250). -/
def paStack (pa : Nat) : Nat := pa / 2 ^ 37 % 32
/-- Stack offset of a physical address (12 R250). -/
def paOff (pa : Nat) : Nat := pa % 2 ^ 37

/-- Core c. -/
def State.core (s : State) (c : Nat) : Core := (look s.cores c).getD Core.reset
/-- Replace core c. -/
def State.setCore (s : State) (c : Nat) (k : Core) : State := { s with cores := put s.cores c k }
/-- Change core c. -/
def State.upCore (s : State) (c : Nat) (f : Core → Core) : State := s.setCore c (f (s.core c))
/-- The core whose bundle issues. -/
def State.me (s : State) : Core := s.core s.cur
/-- Replace it. -/
def State.setMe (s : State) (k : Core) : State := s.setCore s.cur k
/-- Change it. -/
def State.upMe (s : State) (f : Core → Core) : State := s.upCore s.cur f
/-- Cluster k. -/
def State.cluster (s : State) (k : Nat) : Cluster := (look s.clusters k).getD Cluster.reset
/-- Replace cluster k. -/
def State.setCluster (s : State) (k : Nat) (c : Cluster) : State := { s with clusters := put s.clusters k c }
/-- Slice n of a cluster. -/
def Cluster.slice (k : Cluster) (n : Nat) : Slice := (look k.slices n).getD Slice.reset
/-- Die d. -/
def State.die (s : State) (d : Nat) : Die := (look s.dies d).getD Die.reset
/-- Replace die d. -/
def State.setDie (s : State) (d : Nat) (x : Die) : State := { s with dies := put s.dies d x }
/-- Change die d. -/
def State.upDie (s : State) (d : Nat) (f : Die → Die) : State := s.setDie d (f (s.die d))
/-- Stack k. -/
def State.stack (s : State) (k : Nat) : Stack := (look s.stks k).getD Stack.reset
/-- Replace stack k. -/
def State.setStack (s : State) (k : Nat) (x : Stack) : State := { s with stks := put s.stks k x }
/-- Change stack k. -/
def State.upStack (s : State) (k : Nat) (f : Stack → Stack) : State := s.setStack k (f (s.stack k))
/-- Tag entry t; entry 0 is LIVE (03 R39, R51). -/
def State.tag (s : State) (t : Nat) : TagEnt :=
  if t = 0 then ⟨.live, 0, 0, 0, 0⟩ else if t = 4095 then TagEnt.reset else (look s.hxd.tags t).getD TagEnt.reset
/-- Replace tag entry t. -/
def State.setTag (s : State) (t : Nat) (e : TagEnt) : State := { s with hxd := { s.hxd with tags := put s.hxd.tags t e } }
/-- Change the HXD. -/
def State.upHxd (s : State) (f : Hxd → Hxd) : State := { s with hxd := f s.hxd }
/-- Replace a launch. -/
def State.setLaunch (s : State) (r : Nat) (l : Launch) : State := { s with launches := put s.launches r l }
/-- Change a launch, where there is one. -/
def State.upLaunch (s : State) (r : Nat) (f : Launch → Launch) : State :=
  match look s.launches r with
  | none => s
  | some l => s.setLaunch r (f l)

/-- The hardware owes a step, once (log 1). -/
def State.owe (s : State) (i : Instr) : State := { s with inflight := addNew s.inflight i }
/-- Owe a step that names no request of its own, as often as it comes up. -/
def State.oweEach (s : State) (i : Instr) : State := { s with inflight := s.inflight ++ [i] }
/-- Owe several. -/
def State.oweAll (s : State) (is : List Instr) : State := is.foldl State.owe s

/-- Add a request in flight under the next number. -/
def State.addReq (s : State) (r : Req) : State := { s with reqs := put s.reqs s.nextId r, nextId := s.nextId + 1 }
/-- Drop a request. -/
def State.dropReq (s : State) (id : Nat) : State := { s with reqs := del s.reqs id }
/-- Change a request, where there is one. -/
def State.upReq (s : State) (id : Nat) (f : Req → Req) : State :=
  match look s.reqs id with
  | none => s
  | some r => { s with reqs := put s.reqs id (f r) }

/-- Code of a core (06 R103); a monitor runs from its own copy (18 R348). -/
def State.codeOf (s : State) (k : Core) : Option Code :=
  look s.codes (match k.mon with | some m => m.image | none => k.code)

/-- Cause codes (06 R127). -/
def Cause.code : Cause → Nat
  | .illop => 0x01 | .badidx => 0x02 | .badtgt => 0x03 | .slotconf => 0x04 | .badprof => 0x05
  | .nonuni => 0x08 | .deadreg => 0x09 | .stale => 0x0A | .early => 0x0B | .mxbusy => 0x0C | .bankconf => 0x0D
  | .calldeep => 0x10 | .retempty => 0x11 | .loopdeep => 0x12
  | .promise => 0x18 | .pagef => 0x19 | .acchold => 0x1A | .hr => 0x1B | .overarr => 0x1C | .cellfull => 0x1D | .fifobusy => 0x1E
  | .diefenced => 0x20 | .poison => 0x21 | .pairmism => 0x22 | .watchdog => 0x23 | .nf => 0x24
  | .swtrap => 0x28 | .intr => 0x29

/-- The cause of a code (06 R127). -/
def Cause.ofCode (n : Nat) : Option Cause :=
  [Cause.illop, .badidx, .badtgt, .slotconf, .badprof, .nonuni, .deadreg, .stale, .early, .mxbusy, .bankconf, .calldeep,
   .retempty, .loopdeep, .promise, .pagef, .acchold, .hr, .overarr, .cellfull, .fifobusy, .diefenced, .poison, .pairmism,
   .watchdog, .nf, .swtrap, .intr].find? (fun c => c.code == n)

/-- Reason codes (11 R248). -/
def PReason.code : PReason → Nat
  | .notpresent => 1 | .nowrite => 2 | .noncanon => 3 | .untaggable => 4 | .viewwrite => 5 | .unbacked => 6 | .respfail => 7

/-- Reasons that a page request can resolve (11 R248). -/
def PReason.resolvable : PReason → Bool
  | .notpresent | .nowrite => true
  | _ => false

/-- Where a record comes from (18 R355). -/
inductive RecSrc where
  | core (c : Nat) | lc (d : Nat) | rbd (k : Nat) | hxd | fabric (f : Nat)
  deriving DecidableEq, Repr

/-- SOURCE and its two fields (18 R355). -/
def RecSrc.fields : RecSrc → Nat × Nat × Nat
  | .core c => if isNmv c then (1, nmvStack c, nmvNum c) else (0, coreX c, coreY c)
  | .lc d => (2, 0, d)
  | .rbd k => (3, k, 0)
  | .hxd => (4, 0, 0)
  | .fabric f => (4, 1 + f, 0)

/-- The record count of the die of a source (18 R355). -/
def State.recSeq (s : State) : RecSrc → BitVec 32
  | .core c => if isNmv c then (s.stack (nmvStack c)).recSeq else (s.die (coreDie c)).recSeq
  | .lc d => (s.die d).recSeq
  | .rbd k => (s.stack k).recSeq
  | .hxd => s.hxd.recSeq
  | .fabric f => (s.die (64 + f)).recSeq

/-- Count one record of the die of a source. -/
def State.bumpRec (s : State) : RecSrc → State
  | .core c => if isNmv c then s.upStack (nmvStack c) (fun k => { k with recSeq := k.recSeq + 1 })
      else s.upDie (coreDie c) (fun d => { d with recSeq := d.recSeq + 1 })
  | .lc d => s.upDie d (fun d => { d with recSeq := d.recSeq + 1 })
  | .rbd k => s.upStack k (fun k => { k with recSeq := k.recSeq + 1 })
  | .hxd => s.upHxd (fun h => { h with recSeq := h.recSeq + 1 })
  | .fabric f => s.upDie (64 + f) (fun d => { d with recSeq := d.recSeq + 1 })

/-- What a record says (18 R355). -/
structure RecInfo where
  code : Nat
  fatal : Bool := false
  nested : Bool := false
  shadow : Bool := false
  tag : Nat := 0
  detail : Nat := 0
  addr : Nat := 0
  deriving DecidableEq, Repr

/-- The number of a Bool. -/
def nb (b : Bool) : Nat := if b then 1 else 0

/-- Form a record (18 R355). -/
def State.mkRec (s : State) (laneH : Bool) (src : RecSrc) (i : RecInfo) : TRec where
  w0 := BitVec.ofNat 64 (i.code % 256 + 2 ^ 8 * nb laneH + 2 ^ 9 * nb i.fatal + 2 ^ 10 * nb i.nested + 2 ^ 11 * nb i.shadow
    + 2 ^ 12 * src.fields.1 + 2 ^ 16 * src.fields.2.1 + 2 ^ 21 * src.fields.2.2
    + 2 ^ 32 * (i.tag % 4096) + 2 ^ 44 * (s.tag i.tag).gen.toNat)
  w1 := BitVec.ofNat 64 (i.detail % 2 ^ 32 + 2 ^ 32 * (s.recSeq src).toNat)
  addr := BitVec.ofNat 64 i.addr
  tc := BitVec.ofNat 64 s.tc

/-- Send a record: it waits at the HXD, and writing it is owed (18 R355, R356). -/
def State.emit (s : State) (laneH : Bool) (src : RecSrc) (i : RecInfo) : State :=
  let r := s.mkRec laneH src i
  let s := s.bumpRec src
  let s := s.upHxd (fun h => if laneH then { h with laneH := { h.laneH with waiting := h.laneH.waiting ++ [r] } }
    else { h with laneN := { h.laneN with waiting := h.laneN.waiting ++ [r] } })
  s.owe (.trapRecordWrite laneH)

/-- Field code of a register (07 R136): kind in [15:12], number below. -/
def codeS (n : Nat) : Nat := n
/-- See `codeS`. -/
def codeV (n : Nat) : Nat := 0x1000 + n
/-- See `codeS`. -/
def codeP (n : Nat) : Nat := 0x2000 + n
/-- See `codeS`. -/
def codeF (n : Nat) : Nat := 0x3000 + n
/-- See `codeS`. -/
def codeB (n : Nat) : Nat := 0x4000 + n
/-- A latch has no field code of R136; R457 gives 0x5000 plus its number. -/
def codeK (n : Nat) : Nat := 0x5000 + n

/-- S register n; S0 reads zero (06 R117). -/
def Core.sreg (k : Core) (n : Nat) : Word := if n = 0 then 0 else (look k.s n).getD 0
/-- V register n. -/
def Core.vreg (k : Core) (n : Nat) : Vec := (look k.v n).getD 0
/-- Predicate n; P0 is all-true (06 R117). -/
def Core.preg (k : Core) (n : Nat) : BitVec 32 := if n = 0 then 0xFFFF_FFFF else (look k.p n).getD 0
/-- Flag n; F0 is true (06 R117). -/
def Core.freg (k : Core) (n : Nat) : Bool := if n = 0 then true else (look k.f n).getD false
/-- Latch n. -/
def Core.latch (k : Core) (n : Nat) : Vec := (look k.k n).getD 0
/-- Write S n: a write of S0 is discarded; the register becomes live (06 R117, R119). -/
def Core.setS (k : Core) (n : Nat) (x : Word) : Core :=
  if n = 0 then k else { k with s := put k.s n x, dead := without k.dead (codeS n), bad := without k.bad (codeS n) }
/-- Write V n. -/
def Core.setV (k : Core) (n : Nat) (x : Vec) : Core :=
  { k with v := put k.v n x, dead := without k.dead (codeV n), bad := without k.bad (codeV n) }
/-- Write P n: a write of P0 is discarded. -/
def Core.setP (k : Core) (n : Nat) (x : BitVec 32) : Core :=
  if n = 0 then k else { k with p := put k.p n x, dead := without k.dead (codeP n), bad := without k.bad (codeP n) }
/-- Write F n: a write of F0 is discarded. -/
def Core.setF (k : Core) (n : Nat) (x : Bool) : Core :=
  if n = 0 then k else { k with f := put k.f n x, dead := without k.dead (codeF n), bad := without k.bad (codeF n) }
/-- Accumulator bank b: 256 elements (10 R207, R208). -/
def Core.bank (k : Core) (b : Nat) : List Word := (look k.banks b).getD (List.replicate 256 0)
/-- Write bank b. -/
def Core.setBank (k : Core) (b : Nat) (es : List Word) : Core := { k with banks := put k.banks b es, bad := without k.bad (codeB b) }

/-- A vector holding a scalar in bits [63:0] (06 R121). -/
def vecOfWord (x : Word) : Vec := x.setWidth 1024

end Sys2Proof.Machine
end

