-- ==== Sys2Proof/Machine/Store.lean ====
section
/-! DEFINITION. Store.lean: the bytes of ordinary memory and of tagged cells (03 R44 to R49, 12 R250 to R253), scratch
(11 R239 to R241), windows (03 R41 to R43) and translation (11 R246 to R248). -/

namespace Sys2Proof.Machine

/-- What lies at a physical address (12 R250, 25 R437). -/
inductive Region where
  | ordinary | reserve | pool | view | hxd | pcie (port : Nat) | remote | absent
  deriving DecidableEq, Repr

/-- Region of a physical address (12 R250, 25 R437). -/
def region (pa : Nat) : Region :=
  if pa < 2 ^ 42 then
    if paOff pa < 0x13_F000_0000 then .ordinary
    else if paOff pa < 0x14_0000_0000 then .reserve
    else if paOff pa < 0x18_0000_0000 then .pool
    else .view
  else if pa < 0x0400_0000_0000 + 2 ^ 32 then .hxd
  else if 0x0800_0000_0000 ≤ pa ∧ pa < 0x1000_0000_0000 then .pcie (pa / 2 ^ 40 % 8)
  else if 0x0080_0000_0000_0000 ≤ pa ∧ pa < 0x00C0_0000_0000_0000 then .remote
  else .absent

/-- Dead granule of a physical address within its stack (12 R252). -/
def granule64 (pa : Nat) : Nat := paOff pa / 65536

/-- Units of 128 bytes wholly covered by n bytes at pa. -/
def fullUnits (pa n : Nat) : List Nat :=
  upFrom ((pa + 127) / 128) ((pa + n) / 128 - (pa + 127) / 128)

/-- Units of 128 bytes touched by n bytes at pa. -/
def touchedUnits (pa n : Nat) : List Nat := if n = 0 then [] else upFrom (pa / 128) ((pa + n - 1) / 128 - pa / 128 + 1)

/-- Bank of a physical address: pseudo-channel and bank (12 R251), as one number. -/
def bankOf (pa : Nat) : Nat :=
  let b := paOff pa / 1024
  let c := b / 512
  Nat.xor (b % 512) (c % 512) * 48 + c % 48

/-- Row of a physical address (12 R251). -/
def rowOf (pa : Nat) : Nat := paOff pa / 1024 / 512 / 48

/-- Key of a row's counter, from its channel, bank and row (12 R251, R256). -/
def rowAt (ch bank row : Nat) : Nat := row * 2 ^ 16 + ch * 48 + bank

/-- Key of the counter of the row of a physical address. -/
def rowKey (pa : Nat) : Nat := rowOf pa * 2 ^ 16 + bankOf pa

/-- The counters of a stack's rows after an access at TC tc to n bytes at pa: one is raised by the precharge that closes the row's activation
(12 R256). -/
def Stack.opened (k : Stack) (tc pa n : Nat) : Tbl Nat :=
  if n = 0 then k.rows
  else (upFrom (pa / 1024) ((pa + n - 1) / 1024 - pa / 1024 + 1)).foldl (fun t g =>
    if Config.rowCloses (tc * 2 ^ 42 + g) then put t (rowKey (1024 * g)) ((look t (rowKey (1024 * g))).getD 0 + 1) else t) k.rows

/-- Where the cell of a directory key lies in the cell pool of stack `k` (03 R45). -/
def Stack.cellPa (x : Stack) (k key : Nat) : Option Nat := (look x.place key).map (fun p => k * 2 ^ 37 + 0x14_0000_0000 + 1024 * p)

/-- The dead marks that remain after an access to n bytes at pa that revives its granules (12 R252). -/
def Stack.revived (k : Stack) (pa n : Nat) : List Nat :=
  k.deadG.filter (fun g => !(decide (n ≠ 0) && decide (granule64 pa ≤ g) && decide (g ≤ granule64 (pa + n - 1))))

/-- An atomic to a dead granule revives it, whether or not it writes (12 R252). -/
def State.revive (s : State) (pa n : Nat) : State := s.upStack (paStack pa) (fun k => { k with deadG := k.revived pa n })

/-- Write ordinary memory at its coherence point: dead granules are revived, their other bytes being zero (12 R252); a unit
wholly written loses its poison (20 R378); the units take the owner (03 R54). -/
def State.memWrite (s : State) (owner pa : Nat) (bs : List Byte) : State :=
  let k := paStack pa
  let s := { s with mem := s.mem.setBytes pa bs }
  let st := s.stack k
  s.setStack k { st with
    deadG := st.revived pa bs.length
    rows := st.opened s.tc pa bs.length
    poison := st.poison.filter (fun u => !(fullUnits pa bs.length).contains u)
    owner := (touchedUnits pa bs.length).foldl (fun o u => if owner = 0 then del o u else put o u owner) st.owner }

/-- Read ordinary memory at its coherence point. -/
def State.memRead (s : State) (pa n : Nat) : List Byte := s.mem.bytes pa n

/-- Key of a cell in its stack's directory: tag and granule (03 R44, R45). -/
def cellKey (t g : Nat) : Nat := t * 2 ^ 32 + g

/-- The cell of tag t for the granule of pa, where it is materialised (03 R45). -/
def State.cell (s : State) (t pa : Nat) : Option (List Byte) := look (s.stack (paStack pa)).cells (cellKey t (pa / 1024))

/-- The tag whose cell answers a read of tag t at pa: none for a byte that reads zero (03 R46). Depth is at most 15. -/
def State.cellHolder (s : State) : Nat → Nat → Nat → Bool → Option Nat
  | 0, _, _, _ => none
  | fuel + 1, t, pa, zero =>
    if t = 0 then some 0
    else if (s.cell t pa).isSome then some t
    else if zero then none
    else s.cellHolder fuel (s.tag t).parent pa zero

/-- Bytes held by the cell of tag t at pa (03 R46). -/
def State.cellBytes (s : State) (t pa n : Nat) : List Byte :=
  if t = 0 then s.memRead pa n
  else (((s.cell t pa).getD []).drop (pa % 1024)).take n

/-- CellRead over n bytes of one granule (03 R46). -/
def State.cellRead (s : State) (t pa n : Nat) (zero : Bool) : List Byte :=
  let e := s.tag t
  if t ≠ 0 ∧ (e.st = .free ∨ e.st = .draining ∨ t = 4095) then List.replicate n 0
  else match s.cellHolder 17 t pa zero with
    | some h => s.cellBytes h pa n
    | none => List.replicate n 0

/-- The tag whose cell answers a read of tag t at pa, 0 for memory itself; none for bytes that read zero, of a cell that no one holds or of a
tag that is not allocated (03 R46, R53). -/
def State.answering (s : State) (t pa : Nat) (zero : Bool) : Option Nat :=
  if t ≠ 0 ∧ ((s.tag t).st = .free ∨ (s.tag t).st = .draining ∨ t = 4095) then none else s.cellHolder 17 t pa zero

/-- Whether a tag's read at pa finds what tag q holds there, or, with stores of the tags `mat` performed, will hold: no cell between them is
materialised (03 R46). -/
def State.reaches (s : State) (mat : List Nat) (q pa : Nat) (zero : Bool) : Nat → Nat → Bool
  | 0, _ => false
  | f + 1, t =>
    if t = q then true
    else if t = 0 ∨ zero ∨ (s.cell t pa).isSome ∨ mat.contains t then false
    else s.reaches mat q pa zero f (s.tag t).parent

/-- Whether a unit read by tag t at pa is poison (20 R378): in DRAM, or in the cell that answers. -/
def State.cellPoisoned (s : State) (t pa n : Nat) (zero : Bool) : Bool :=
  let e := s.tag t
  if t ≠ 0 ∧ (e.st = .free ∨ e.st = .draining ∨ t = 4095) then false
  else match s.cellHolder 17 t pa zero with
    | none => false
    | some h => (touchedUnits pa n).any (fun u =>
        if h = 0 then (s.stack (paStack pa)).poison.contains u
        else (s.stack (paStack pa)).cellPoison.contains (cellKey h (pa / 1024) * 8 + u % 8))

/-- Detail word of CELLFULL (03 R49). -/
def cellFullDetail (stack : Nat) (quota : Bool) (t : Nat) : BitVec 32 :=
  BitVec.ofNat 32 (2 ^ 27 * stack + 2 ^ 26 * nb quota + t)

/-- Granules that tag t holds on a stack (03 R46). -/
def Stack.cellsOf (k : Stack) (t : Nat) : Nat := (k.cells.filter (fun e => e.1 / 2 ^ 32 == t)).length

/-- Places in use of a chunk. -/
def Stack.chunkPlaces (k : Stack) (ch : Nat) : List Nat := (vals k.place).filter (fun p => p / 64 == ch)

/-- First place free for tag t in the chunks it holds (03 R45). -/
def Stack.placeIn (k : Stack) (chunks : List Nat) : Option Nat :=
  chunks.findSome? (fun ch => ((upFrom (64 * ch) 64).find? (fun p => !(k.chunkPlaces ch).contains p)))

/-- The lowest chunk in no tag's hands. -/
def Stack.freeChunk (k : Stack) : Option Nat :=
  (upFrom 0 (k.chunkOf.length + 1)).find? (fun ch => decide (ch < 262144) && (look k.chunkOf ch).isNone)

/-- PlaceFree and the place it finds (03 R45, R46): a place in a chunk of t, or in a free chunk, while the directory has
room. -/
def Stack.findPlace (k : Stack) (t : Nat) : Option Nat :=
  if 2 ^ 24 ≤ k.cells.length then none
  else match k.placeIn ((k.chunkOf.filter (fun e => e.2 == t)).map Prod.fst) with
    | some p => some p
    | none => k.freeChunk.map (fun ch => 64 * ch)

/-- The places of DRAM that a request of tag t at pa opens (03 R45, R46): that of the cell that answers a read, and that of the cell which a
write materialises. -/
def State.dramOf (s : State) (t pa : Nat) (zero write : Bool) : List Nat :=
  let k := paStack pa
  let x := s.stack k
  (match s.answering t pa zero with
    | none => []
    | some h => if h = 0 then [pa] else (x.cellPa k (cellKey h (pa / 1024))).toList) ++
  (if write && t != 0 && (s.cell t pa).isNone then ((x.findPlace t).map (fun p => k * 2 ^ 37 + 0x14_0000_0000 + 1024 * p)).toList else [])

/-- The RBD recalls writable lines of an address from the dies of its cell, but for the die named (11 R244). -/
def State.recall (s : State) (pa n : Nat) (keep : Option Nat) : State :=
  [2 * paStack pa, 2 * paStack pa + 1].foldl (fun s d =>
    if keep = some d then s
    else s.upDie d (fun x => { x with dirty := x.dirty.filter (fun l => !(touchedUnits pa n).contains l) })) s

/-- An access to n bytes of DRAM at a place opens its row (12 R256). -/
def State.opensAt (s : State) (a n : Nat) : State := s.upStack (paStack a) (fun x => { x with rows := x.opened s.tc a n })

/-- A read at the RBD of n bytes of one granule by tag t (12 R256, 15 R298): lines of tag 0 that answer it are recalled first, from every die
but, for a request of tag 0, the die that asks; the row that holds the bytes is opened. -/
def State.fetched (s : State) (t pa n : Nat) (zero : Bool) (d : Option Nat) : State :=
  let s1 := if s.answering t pa zero = some 0 then s.recall pa n (if t = 0 then d else none) else s
  (s.dramOf t pa zero false).foldl (fun s a => s.opensAt a n) s1

/-- Dead granule of the cell-pool chunk ch (03 R45, 12 R252): the pool begins at offset 0x14_0000_0000. -/
def poolGranule (ch : Nat) : Nat := 0x14_0000_0000 / 65536 + ch

/-- Materialise (t, granule of pa) with its initial bytes, which the RBD reads as any request does, or CELLFULL (03 R46, R47). A new directory
entry, its place, and the revival of the chunk (22 R424). -/
def State.materialise (s : State) (t pa : Nat) (zero : Bool) : Except (BitVec 32) State :=
  let kn := paStack pa
  let k := s.stack kn
  let g := pa / 1024
  let q := (s.tag t).quota
  if k.cellsOf t = q ∧ q ≠ 0 then .error (cellFullDetail kn true t)
  else match k.findPlace t with
    | none => .error (cellFullDetail kn false t)
    | some p =>
      let init := s.cellRead t (1024 * g) 1024 zero
      let s := s.fetched t (1024 * g) 1024 zero none
      let k := s.stack kn
      .ok (s.setStack kn { k with
        cells := put k.cells (cellKey t g) init
        place := put k.place (cellKey t g) p
        chunkOf := put k.chunkOf (p / 64) t
        deadG := without k.deadG (poolGranule (p / 64)) })

/-- Replace part of a list. -/
def splice {α : Type} (l : List α) (i : Nat) (xs : List α) : List α := l.take i ++ xs ++ l.drop (i + xs.length)

/-- Write bytes into a materialised cell (03 R46); whole units lose their poison (20 R378). -/
def State.cellPut (s : State) (t pa : Nat) (bs : List Byte) : State :=
  let kn := paStack pa
  let k := s.stack kn
  let key := cellKey t (pa / 1024)
  s.setStack kn { k with
    rows := match k.cellPa kn key with | some a => k.opened s.tc a 1 | none => k.rows
    cells := put k.cells key (splice ((look k.cells key).getD []) (pa % 1024) bs)
    cellPoison := k.cellPoison.filter (fun u => !((fullUnits pa bs.length).map (fun u => key * 8 + u % 8)).contains u) }

/-- A cell that a write would materialise copies poison (20 R379): the poisoned address. -/
def State.matPoison (s : State) (tag pa : Nat) (zero : Bool) : Option Nat :=
  if tag = 0 ∨ (s.cell tag pa).isSome then none
  else ((upFrom 0 8).map (fun i => pa / 1024 * 1024 + 128 * i)).find? (fun p => s.cellPoisoned tag p 128 zero)

/-- CellWrite of bytes of one granule (03 R46). -/
def State.cellWrite (s : State) (t pa : Nat) (zero : Bool) (bs : List Byte) : Except (BitVec 32) State :=
  if t = 0 then .ok (s.memWrite 0 pa bs)
  else if (s.cell t pa).isSome then .ok (s.cellPut t pa bs)
  else match s.materialise t pa zero with
    | .error d => .error d
    | .ok s => .ok (s.cellPut t pa bs)

/-- A write by a context of owner tag `owner` (03 R54): an untagged write of a tagged context marks its units. -/
def State.write (s : State) (owner t pa : Nat) (zero : Bool) (bs : List Byte) : Except (BitVec 32) State :=
  if t = 0 then .ok (s.memWrite owner pa bs) else s.cellWrite t pa zero bs

/-- Mark a unit of memory or of a cell poison; a dead granule is never poison (20 R378, 12 R252). -/
def State.poisonUnit (s : State) (t pa : Nat) : State :=
  let kn := paStack pa
  let k := s.stack kn
  if t = 0 then
    if k.deadG.contains (granule64 pa) then s else s.setStack kn { k with poison := addNew k.poison (pa / 128) }
  else s.setStack kn { k with cellPoison := addNew k.cellPoison (cellKey t (pa / 1024) * 8 + pa / 128 % 8) }

/-- Slice of a scratch address (11 R239). -/
def sliceOf (a : Nat) : Nat := a / 786432
/-- Bytes of the scratch window (11 R239). -/
def scratchSize : Nat := 0x180_0000

/-- Whether a scratch byte may be accessed as scratch (11 R240). -/
def Cluster.isScratch (k : Cluster) (a : Nat) : Bool := decide (a < scratchSize) && (k.slice (sliceOf a)).mode == .scratch

/-- The first of n bytes at a that R240 refuses. -/
def Cluster.badScratch (k : Cluster) : Nat → Nat → Option Nat
  | _, 0 => none
  | a, n + 1 => if k.isScratch a then k.badScratch (a + 1) n else some a

/-- The first byte of the range, or of a slice boundary within it, that R240 refuses: equal to `badScratch` for any
range, since a slice has one mode (11 R238). -/
def Cluster.badRange (k : Cluster) (a n : Nat) : Option Nat :=
  if n = 0 then none
  else (a :: ((upFrom 1 32).map (fun i => i * 786432)).filter (fun x => decide (a < x) && decide (x < a + n))).find?
    (fun x => !k.isScratch x)

/-- Write scratch bytes of a cluster: the units' owner and poison follow (03 R54, 20 R378). -/
def State.scratchWrite (s : State) (cl owner a : Nat) (bs : List Byte) : State :=
  let k := s.cluster cl
  s.setCluster cl { k with
    mem := k.mem.setBytes a bs
    poison := k.poison.filter (fun u => !(fullUnits a bs.length).contains u)
    owner := (touchedUnits a bs.length).foldl (fun o u => if owner = 0 then del o u else put o u owner) k.owner }

/-- Whether a scratch range holds poison. -/
def Cluster.poisoned (k : Cluster) (a n : Nat) : Bool := (touchedUnits a n).any k.poison.contains

/-- Most entries of a FIFO slice (11 R238). -/
def fifoMax : Nat := 6144

/-- Canonical Sv57 address: bits [63:57] equal bit 56 (11 R246). -/
def canonical (va : Nat) : Bool := va / 2 ^ 56 == 0 || va / 2 ^ 56 == 255

/-- The windows that resolve a core's accesses (03 R43): its launch's, or those of its share's bucket; a context of tag 0
has none in effect (03 R40). -/
def State.windowsOf (s : State) (k : Core) : List Window :=
  if k.ctag = 0 then []
  else match k.share with
    | some sh => sh.windows
    | none => match k.rid with
      | some r => match look s.launches r with
        | some l => l.windows
        | none => []
      | none => []

/-- The window of a list that holds an address (03 R41). -/
def inWindow (ws : List Window) (va : Nat) : Option Window :=
  ws.find? (fun w => decide (w.base ≤ va) && decide (va < w.base + 65536 * w.size))

/-- Tag and policy of an address under a context's tag and windows (03 R43). -/
def resolveIn (ws : List Window) (tag va : Nat) : Nat × Bool :=
  match inWindow ws va with
  | some w => (tag, w.zero)
  | none => (0, false)

/-- Tag and policy of a core access (03 R43). -/
def State.resolve (s : State) (k : Core) (va : Nat) : Nat × Bool := resolveIn (s.windowsOf k) k.ctag.toNat va

/-- Whether an address lies in a tagged window of the core's launch that has effect (16 R311, 03 R40). -/
def State.inTagged (s : State) (k : Core) (va : Nat) : Bool := (inWindow (s.windowsOf k) va).isSome

/-- Key of an engine's translation cache (11 R247). -/
def engKey : Engine → Nat
  | .core c => c
  | .copy k => 10000 + k
  | .rbd k => 20000 + k

/-- The engine that translates for a core (11 R247): an NMV core uses its RBD's cache. -/
def engOf (c : Nat) : Engine := if isNmv c then .rbd (nmvStack c) else .core c

/-- Answer of a translation (11 R247, R248). -/
inductive XRes where
  | miss
  | ok (pa : Nat)
  | fault (r : PReason)
  deriving DecidableEq, Repr

/-- Kind of access for translation. -/
inductive Acc where
  | read | write | gacc
  deriving DecidableEq, Repr

/-- Reasons that follow from where a translation leads, in the order of R248. -/
def leadsTo (pa tag : Nat) (a : Acc) : Option PReason :=
  match region pa with
  | .ordinary => none
  | .reserve | .pool | .absent => some .unbacked
  | .remote => if a = .gacc then none else some .unbacked
  | .view => if a ≠ .read then some .viewwrite else if tag ≠ 0 then some .untaggable else none
  | .hxd | .pcie _ => if tag ≠ 0 then some .untaggable else none

/-- Translate a virtual address through an engine's cache, for a request of a tag (11 R247, R248). -/
def State.xlate (s : State) (e : Engine) (va tag : Nat) (a : Acc) : XRes :=
  if !canonical va then .fault .noncanon
  else match ((look s.xcache (engKey e)).getD []).find? (fun x => match x.leaf with
      | some l => decide (l.va ≤ va) && decide (va < l.va + l.size)
      | none => x.va / 4096 == va / 4096) with
    | none => .miss
    | some x => match x.leaf with
      | none => .fault .notpresent
      | some l =>
        if a = .read ∧ l.r = false then .fault .notpresent
        else if a ≠ .read ∧ l.w = false then .fault .nowrite
        else match leadsTo (l.pa + (va - l.va)) tag a with
          | some r => .fault r
          | none => .ok (l.pa + (va - l.va))

/-- Forget what an engine's cache holds of an address, so that it is translated again (11 R249). -/
def State.forget (s : State) (e : Engine) (va : Nat) : State :=
  { s with xcache := put s.xcache (engKey e) (((look s.xcache (engKey e)).getD []).filter (fun x => match x.leaf with
      | some l => !(decide (l.va ≤ va) && decide (va < l.va + l.size))
      | none => x.va / 4096 != va / 4096)) }

/-- PAGEF with its reason and address (11 R248). -/
def pagef (r : PReason) (va : Word) : TrapInfo := ⟨.pagef, BitVec.ofNat 32 r.code, va⟩

end Sys2Proof.Machine
end

