-- ==== Sys2Proof/Machine/Operands.lean ====
section
/-! DEFINITION. Operands.lean: every operand form of the slots (06 R109 to R117), with the checks a read meets: an entry that
fails its check (20 R379), a pending result (07 R136), a dead register (06 R119), a stale latch (06 R121); and how a
slot delivers its result (07 R135). Every slot of a bundle reads the same values: what a slot does to a register is
queued in `pend` or `bound` and never written at once (07 R133). -/

namespace Sys2Proof.Machine

/-- What stops a slot from taking effect. -/
inductive Stop where
  /-- A precise trap (07 R133). -/
  | trap (t : TrapInfo)
  /-- The same for a strong store, which the trap frame holds (13 R266). -/
  | trapSt (t : TrapInfo) (r : Req)
  /-- Poison consumed by a read of the core's own state: a rewind is taken at the boundary before the bundle (20 R379). -/
  | rewind (pa : Nat)
  /-- The whole core stalls and the bundle does not issue in this cycle (07 R134); `soft` for the stalls that a
  cancellation ends at once (05 R101). -/
  | stall (soft : Bool)
  /-- The same, until a translation is answered (11 R247). -/
  | xlat (e : Engine) (va : Nat)
  deriving DecidableEq, Repr

/-- A slot's reading of the state: a value, or what stops it. -/
abbrev Rd (α : Type) := Except Stop α

/-- A precise trap with a detail word and no address. -/
def trapD {α : Type} (c : Cause) (d : Nat) : Rd α := .error (.trap ⟨c, BitVec.ofNat 32 d, 0⟩)
/-- A precise trap with a detail word and an address. -/
def trapA {α : Type} (c : Cause) (d : Nat) (a : Word) : Rd α := .error (.trap ⟨c, BitVec.ofNat 32 d, a⟩)
/-- ILLOP with a detail word. -/
def illop {α : Type} (d : Nat) : Rd α := trapD .illop d

/-- Field code of a destination (07 R136). -/
def Dest.code : Dest → Option Nat
  | .none => Option.none
  | .s n => some (codeS n.toNat)
  | .v n => some (codeV n.toNat)
  | .p n => some (codeP n.toNat)
  | .f n => some (codeF n.toNat)

/-- Strict mode is in force: a monitor runs in fast mode (07 R140, 18 R349). -/
def Core.strictNow (k : Core) : Bool := k.strict && k.mon.isNone

/-- Whether a register has a result issued in an earlier cycle and not yet readable (07 R136). -/
def Core.pendingReg (k : Core) (code : Nat) : Bool :=
  k.pend.any (fun p => p.dest.code == some code && decide (p.iss < k.ic))

/-- Number of the free value of a read: `fresh` counts core cycles, `ix` the slot and field (log 6). -/
def State.freeIx (s : State) (ix : Nat) : Nat := s.fresh * 256 + ix

/-- The checks of a register read, giving whether the value is undefined (07 R140, 20 R379). In strict mode a register that is both pending
and dead traps EARLY (log 104). -/
def Core.regCheck (k : Core) (code : Nat) : Rd Bool :=
  if k.bad.contains code then .error (.rewind 0)
  else if k.strictNow && k.pendingReg code then trapD .early code
  else if k.dead.contains code then
    if k.strictNow then trapD .deadreg code else .ok true
  else .ok false

/-- Read S n. -/
def State.rdS (s : State) (ix n : Nat) : Rd Word :=
  if n = 0 then .ok 0
  else match s.me.regCheck (codeS n) with
    | .error e => .error e
    | .ok true => .ok (Config.freeWord (s.freeIx ix))
    | .ok false => .ok (s.me.sreg n)

/-- Read V n. -/
def State.rdV (s : State) (ix n : Nat) : Rd Vec :=
  match s.me.regCheck (codeV n) with
  | .error e => .error e
  | .ok true => .ok (Config.freeVec (s.freeIx ix))
  | .ok false => .ok (s.me.vreg n)

/-- Read P n. -/
def State.rdP (s : State) (ix n : Nat) : Rd (BitVec 32) :=
  if n = 0 then .ok 0xFFFF_FFFF
  else match s.me.regCheck (codeP n) with
    | .error e => .error e
    | .ok true => .ok (Config.freePred (s.freeIx ix))
    | .ok false => .ok (s.me.preg n)

/-- Read F n. -/
def State.rdF (s : State) (ix n : Nat) : Rd Bool :=
  if n = 0 then .ok true
  else match s.me.regCheck (codeF n) with
    | .error e => .error e
    | .ok true => .ok (Config.freeFlag (s.freeIx ix))
    | .ok false => .ok (s.me.freg n)

/-- Read latch n: stale, it is an undefined value in fast mode and STALE in strict mode (06 R121). -/
def State.rdK (s : State) (ix n : Nat) : Rd Vec :=
  if s.me.bad.contains (codeK n) then .error (.rewind 0)
  else if s.me.stale.contains n then
    if s.me.strictNow then trapD .stale (codeK n) else .ok (Config.freeVec (s.freeIx ix))
  else .ok (s.me.latch n)

/-- Read a scalar source field (06 R109): a latch gives its bits [63:0] (06 R121). -/
def State.rdSSrc (s : State) (ix : Nat) : SSrc → Rd Word
  | .reg n _ => s.rdS ix n.toNat
  | .latch k => match s.rdK ix k.toNat with
    | .error e => .error e
    | .ok v => .ok (v.setWidth 64)

/-- Read a vector source field (06 R109). -/
def State.rdVSrc (s : State) (ix : Nat) : VSrc → Rd Vec
  | .reg n _ => s.rdV ix n.toNat
  | .latch k => s.rdK ix k.toNat

/-- The register a scalar source marks dead (06 R119): S0 never dies. -/
def sDying : SSrc → List Nat
  | .reg n true => if n = 0 then [] else [codeS n.toNat]
  | _ => []

/-- The register a vector source marks dead. -/
def vDying : VSrc → List Nat
  | .reg n true => [codeV n.toNat]
  | _ => []

/-- Mark registers dead once the bundle has issued (06 R119). -/
def Core.kill (k : Core) (codes : List Nat) : Core := { k with bound := k.bound ++ codes.map BWrite.dead }

/-- A destination that is written: none with WBS set, and none for S0, P0, F0 (06 R110, R117). -/
def destS (d : BitVec 6) (wbs : Bool) : Dest := if wbs ∨ d = 0 then .none else .s d
/-- See `destS`. -/
def destV (d : BitVec 11) (wbs : Bool) : Dest := if wbs then .none else .v d
/-- See `destS`. -/
def destP (d : BitVec 4) (wbs : Bool) : Dest := if wbs ∨ d = 0 then .none else .p d
/-- See `destS`. -/
def destF (d : BitVec 3) (wbs : Bool) : Dest := if wbs ∨ d = 0 then .none else .f d

/-- Queue a result that becomes readable L issue cycles on (07 R135); a monitor's results reach no latch (18 R349). -/
def Core.deliver (k : Core) (lat : Nat) (dest : Dest) (latch : Option (BitVec 3)) (val : Vec) (efl : BitVec 6) : Core :=
  { k with
    pend := k.pend ++ [⟨k.ic + lat, k.ic, k.seq, dest, val, if k.mon.isSome then none else latch, efl, false, .ready, 0⟩]
    seq := k.seq + 1 }

/-- Latch of a scalar slot (06 R120). -/
def sLatch : Side → BitVec 3
  | .a => 0
  | .b => 1
/-- Latch of a vector slot (06 R120). -/
def vLatch : Side → BitVec 3
  | .a => 2
  | .b => 3
/-- Base of the free-value numbers of a scalar slot (log 6). -/
def sIx : Side → Nat
  | .a => 8
  | .b => 16
/-- Base of the free-value numbers of a vector slot. -/
def vIx : Side → Nat
  | .a => 24
  | .b => 32

/-- Deliver a scalar result to D and K0 or K1. -/
def Core.deliverS (k : Core) (h : SHead) (lat : Nat) (x : Word) : Core :=
  k.deliver lat (destS h.d h.wbs) (some (sLatch h.side)) (vecOfWord x) 0

/-- Land one result: its register, its latch with K6 and K7 following K2 and K3, its flags (06 R120, R121, 18 R343). -/
def Core.landVal (k : Core) (dest : Dest) (val : Vec) : Core :=
  match dest with
  | .none => k
  | .s n => k.setS n.toNat (val.setWidth 64)
  | .v n => k.setV n.toNat val
  | .p n => k.setP n.toNat (val.setWidth 32)
  | .f n => k.setF n.toNat (val.getLsbD 0)

/-- Set a latch, no longer stale. -/
def Core.setK (k : Core) (n : Nat) (v : Vec) : Core :=
  { k with k := put k.k n v, stale := without k.stale n, bad := without k.bad (codeK n) }

/-- Copy latch i into latch j, staleness and the mark of a failed check (20 R379) and all. -/
def Core.copyK (k : Core) (i j : Nat) : Core :=
  { k with k := put k.k j (k.latch i)
           stale := if k.stale.contains i then addNew k.stale j else without k.stale j
           bad := if k.bad.contains (codeK i) then addNew k.bad (codeK j) else without k.bad (codeK j) }

/-- Update a latch with a result (06 R120): K6 and K7 take what K2 and K3 held. -/
def Core.latchIn (k : Core) (n : Nat) (v : Vec) : Core :=
  let k := if n = 2 then k.copyK 2 6 else if n = 3 then k.copyK 3 7 else k
  k.setK n v

/-- Land one result (18 R343). -/
def Core.land (k : Core) (p : Pend) : Core :=
  let k := k.landVal p.dest p.val
  let k := match p.latch with
    | some n => k.latchIn n.toNat p.val
    | none => k
  { k with flags := k.flags ||| p.efl }

end Sys2Proof.Machine
end

