-- ==== Sys2Proof/Machine/Flags.lean ====
section
/-! DEFINITION. Flags.lean: the exception flags of SYS.FLAGS (04 R67). A flag is the OR over every elementary operation, so
an operation's flags are a value beside its result. -/

namespace Sys2Proof.Machine

/-- Flags as SYS.FLAGS[5:0] holds them (04 R67). -/
abbrev Flags := BitVec 6

/-- Invalid operation (04 R67). -/
def flNV : Flags := 1
/-- Overflow. -/
def flOF : Flags := 2
/-- Underflow. -/
def flUF : Flags := 4
/-- Inexact. -/
def flNX : Flags := 8
/-- Non-finite result. -/
def flNF : Flags := 16
/-- Headroom. -/
def flHR : Flags := 32

/-- A flag under a condition. -/
def flIf (b : Bool) (f : Flags) : Flags := if b then f else 0

/-- The OR of flags. -/
def flOr : List Flags → Flags
  | [] => 0
  | f :: fs => f ||| flOr fs

end Sys2Proof.Machine
end

