-- ==== Sys2Proof/Machine/Numeric.lean ====
section
/-! DEFINITION. Numeric.lean: exact values, the number formats (04 R56 to R61), rounding (04 R68, R69), conversions (04 R71,
R72) and exact arithmetic with the special cases of 04 R65, R66 and 09 R181. -/

namespace Sys2Proof.Machine

/-- An exact value: NaN, an infinity, or (-1)^neg × m × 2^e; m = 0 is a zero with its sign (04 R65, R66). -/
inductive FV where
  | nan
  | inf (neg : Bool)
  | fin (neg : Bool) (m : Nat) (e : Int)
  deriving DecidableEq, Repr

/-- A binary floating format (04 R58): MaxFin is maxM × 2^maxE, Emax the exponent of its leading bit. -/
structure Fmt where
  w : Nat
  fbits : Nat
  bias : Int
  prec : Nat
  emin : Int
  emax : Int
  maxM : Nat
  maxE : Int
  canon : Nat
  hasInf : Bool
  saturates : Bool
  deriving DecidableEq, Repr

/-- FP32 (04 R58). -/
def fmt32 : Fmt := ⟨32, 23, 127, 24, -126, 127, 2 ^ 24 - 1, 104, 0x7FC00000, true, false⟩
/-- BF16. -/
def fmtBf16 : Fmt := ⟨16, 7, 127, 8, -126, 127, 255, 120, 0x7FC0, true, false⟩
/-- FP16. -/
def fmtFp16 : Fmt := ⟨16, 10, 15, 11, -14, 15, 2047, 5, 0x7E00, true, false⟩
/-- E4M3: no infinity; NaN only with every magnitude bit set. -/
def fmtE4m3 : Fmt := ⟨8, 3, 7, 4, -6, 8, 14, 5, 0x7F, false, true⟩
/-- E5M2. -/
def fmtE5m2 : Fmt := ⟨8, 2, 15, 3, -14, 15, 7, 13, 0x7E, true, true⟩

/-- The binary format of an element type. -/
def fmtOf : ElemType → Option Fmt
  | .fp32 => some fmt32
  | .bf16 => some fmtBf16
  | .fp16 => some fmtFp16
  | .e4m3 => some fmtE4m3
  | .e5m2 => some fmtE5m2
  | _ => none

/-- The exact value of the bits of a binary format (04 R58). -/
def decFmt (f : Fmt) (b : Nat) : FV :=
  let neg := bit b (f.w - 1)
  let ebits := f.w - 1 - f.fbits
  let ex := fld b f.fbits ebits
  let fr := fld b 0 f.fbits
  if ex = 2 ^ ebits - 1 ∧ f.hasInf then
    if fr = 0 then .inf neg else .nan
  else if ex = 2 ^ ebits - 1 ∧ fr = 2 ^ f.fbits - 1 then .nan
  else if ex = 0 then .fin neg fr (f.emin - f.fbits)
  else .fin neg (2 ^ f.fbits + fr) (ex - f.bias - f.fbits)

/-- Length of the run of bits equal to bit hi, downwards from it, within hi + 1 bits (04 R61). -/
def runLen (mag : Nat) (b : Bool) : Nat → Nat
  | 0 => if bit mag 0 == b then 1 else 0
  | i + 1 => if bit mag (i + 1) == b then 1 + runLen mag b i else 0

/-- DecodeT8 (04 R61). -/
def decT8 (b : Nat) : FV :=
  let s := bit b 7
  let mag := fld b 0 7
  if mag = 0 then (if s then .nan else .fin false 0 0)
  else
    let m := runLen mag (bit mag 6) 6
    let k : Int := if bit mag 6 then (m : Int) - 1 else -(m : Int)
    let n := 7 - m - 1
    let e : Int := if 1 ≤ n ∧ bit mag (n - 1) then 1 else 0
    let nf := n - 1
    .fin s (2 ^ nf + (if 2 ≤ n then fld mag 0 nf else 0)) (2 * k + e - nf)

/-- DecodeT6 (04 R61). -/
def decT6 (b : Nat) : FV :=
  let s := bit b 5
  let mag := fld b 0 5
  if mag = 0 then (if s then .nan else .fin false 0 0)
  else
    let m := runLen mag (bit mag 4) 4
    let k : Int := if bit mag 4 then (m : Int) - 1 else -(m : Int)
    let n := 5 - m - 1
    .fin s (2 ^ n + fld mag 0 n) (k - n)

/-- E8M0 (04 R59). -/
def decE8m0 (b : Nat) : FV := if b % 256 = 255 then .nan else .fin false 1 (b % 256 - 127)

/-- The exact value of an integer. -/
def ofInt (n : Int) : FV := .fin (decide (n < 0)) n.natAbs 0

/-- An integer element read by its type (04 R56). -/
def intOf (t : ElemType) (b : Nat) : Int := if t.signed then sx b t.width else ((b % 2 ^ t.width : Nat) : Int)

/-- Dec(t, e) (09 R178); MOM8 and untyped have no value of their own and read as integers. -/
def dec (t : ElemType) (b : Nat) : FV :=
  match t with
  | .fp32 => decFmt fmt32 b
  | .bf16 => decFmt fmtBf16 (b % 2 ^ 16)
  | .fp16 => decFmt fmtFp16 (b % 2 ^ 16)
  | .e4m3 => decFmt fmtE4m3 (b % 2 ^ 8)
  | .e5m2 => decFmt fmtE5m2 (b % 2 ^ 8)
  | .t8 => decT8 (b % 2 ^ 8)
  | .t6 => decT6 (b % 2 ^ 6)
  | .e8m0 => decE8m0 b
  | t => ofInt (intOf t b)

/-- Encode of an infinity (04 R58). -/
def encInf (f : Fmt) (neg : Bool) : Nat := nbit neg (f.w - 1) + (2 ^ (f.w - 1 - f.fbits) - 1) * 2 ^ f.fbits
where
  /-- A bit at a place. -/
  nbit (b : Bool) (i : Nat) : Nat := if b then 2 ^ i else 0

/-- Encode of m × 2^q where q is the spacing exponent at the value and m ≤ 2^Prec (04 R58). -/
def encFin (f : Fmt) (neg : Bool) (m : Nat) (q : Int) : Nat :=
  let s := encInf.nbit neg (f.w - 1)
  let (m, q) := if m = 2 ^ f.prec then (m / 2, q + 1) else (m, q)
  if m < 2 ^ (f.prec - 1) then s + m
  else s + (q + f.fbits + f.bias).toNat * 2 ^ f.fbits + (m - 2 ^ f.fbits)

/-- The greatest finite value with a sign. -/
def encMax (f : Fmt) (neg : Bool) : Nat := encFin f neg f.maxM f.maxE

/-- m × 2^q > MaxFin, for a value of the format's precision (04 R68). -/
def overMax (f : Fmt) (m : Nat) (q : Int) : Bool := decide (f.maxE ≤ q) && decide (f.maxM < m * 2 ^ (q - f.maxE).toNat)

/-- Round up from lo under a mode: the remainder r of the divisor d (04 R68). -/
def roundsUp (mode : RMode) (neg : Bool) (lo r d : Nat) : Bool :=
  match mode with
  | .rne => decide (d < 2 * r) || (decide (2 * r = d) && lo % 2 == 1)
  | .rtz => false
  | .rup => !neg && decide (r ≠ 0)
  | .rdn => neg && decide (r ≠ 0)

/-- Round of a finite nonzero value (04 R68). -/
def roundFin (f : Fmt) (mode : RMode) (neg : Bool) (m : Nat) (e : Int) : Nat × Flags :=
  let l : Int := (Nat.log2 m : Int) + e
  let q : Int := (if f.emin ≤ l then l else f.emin) - f.prec + 1
  let d := 2 ^ (q - e).toNat
  let (lo, r) := if q ≤ e then (m * 2 ^ (e - q).toNat, 0) else (m / d, m % d)
  let mm := if q ≤ e then lo else if roundsUp mode neg lo r d then lo + 1 else lo
  let inexact := decide (r ≠ 0)
  let fl := flIf inexact flNX ||| flIf (inexact && decide (l < f.emin)) flUF
  if overMax f mm q then
    let sat := f.saturates || mode == .rtz || (mode == .rup && neg) || (mode == .rdn && !neg)
    (if sat then encMax f neg else encInf f neg, fl ||| flOF ||| flNX)
  else (encFin f neg mm q, fl)

/-- Round (04 R68). -/
def roundTo (f : Fmt) (mode : RMode) : FV → Nat × Flags
  | .nan => (f.canon, 0)
  | .inf neg => if f.hasInf then (encInf f neg, 0) else (f.canon, flNV)
  | .fin neg m e => if m = 0 then (encFin f neg 0 (f.emin - f.fbits), 0) else roundFin f mode neg m e

/-- Compare m1 × 2^e1 with m2 × 2^e2. -/
def cmpMag (m1 : Nat) (e1 : Int) (m2 : Nat) (e2 : Int) : Ordering :=
  let e := min e1 e2
  compare (m1 * 2 ^ (e1 - e).toNat) (m2 * 2 ^ (e2 - e).toNat)

/-- Magnitude and exponent of a tapered code. -/
def taperMag (t6 : Bool) (c : Nat) : Nat × Int :=
  match (if t6 then decT6 c else decT8 c) with
  | .fin _ m e => (m, e)
  | _ => (0, 0)

/-- The greatest code from c down whose magnitude is at most a (04 R69). -/
def taperFloor (t6 : Bool) (m : Nat) (e : Int) : Nat → Nat
  | 0 => 0
  | c + 1 => if cmpMag (taperMag t6 (c + 1)).1 (taperMag t6 (c + 1)).2 m e != .gt then c + 1 else taperFloor t6 m e c

/-- The sum of two magnitudes, and the double of one, for the tie test. -/
def addMag (a b : Nat × Int) : Nat × Int :=
  let e := min a.2 b.2
  (a.1 * 2 ^ (a.2 - e).toNat + b.1 * 2 ^ (b.2 - e).toNat, e)

/-- RoundTaper (04 R69): the code with its sign in the top bit of the field. -/
def roundTaper (t6 : Bool) (mode : RMode) : FV → Nat × Flags
  | .nan => (if t6 then 0x20 else 0x80, 0)
  | .inf _ => (if t6 then 0x20 else 0x80, flNV)
  | .fin neg m e =>
    if m = 0 then (0, 0)
    else
      let top := if t6 then 31 else 127
      let sgn := if neg then top + 1 else 0
      let mx := taperMag t6 top
      let mn := taperMag t6 1
      if cmpMag m e mx.1 mx.2 == .gt then (sgn + top, flOF ||| flNX)
      else if cmpMag m e mn.1 mn.2 == .lt then (sgn + 1, flUF ||| flNX)
      else
        let lo := taperFloor t6 m e top
        let ml := taperMag t6 lo
        if cmpMag m e ml.1 ml.2 == .eq then (sgn + lo, 0)
        else
          let mh := taperMag t6 (lo + 1)
          let two := addMag ml mh
          let up := match mode with
            | .rne => match cmpMag (2 * m) e two.1 two.2 with
              | .lt => false
              | .gt => true
              | .eq => lo % 2 == 1
            | .rtz => false
            | .rup => !neg
            | .rdn => neg
          (sgn + (if up then lo + 1 else lo), flNX)

/-- Bounds of an integer type (04 R56). -/
def intLo (t : ElemType) : Int := if t.signed then -(2 ^ (t.width - 1) : Int) else 0
/-- See `intLo`. -/
def intHi (t : ElemType) : Int := if t.signed then (2 ^ (t.width - 1) : Int) - 1 else (2 ^ t.width : Int) - 1

/-- An integer taken modulo 2^w. -/
def wrapN (w : Nat) (i : Int) : Nat := (i % (2 ^ w : Int)).toNat

/-- Clamp an integer into a type (04 R71). -/
def clampInt (t : ElemType) (n : Int) : Int := if n < intLo t then intLo t else if intHi t < n then intHi t else n

/-- ConvertInt (04 R71). -/
def convertInt (t : ElemType) (mode : RMode) : FV → Nat × Flags
  | .nan => (0, flNV)
  | .inf neg => (wrapN t.width (if neg then intLo t else intHi t), flNV)
  | .fin neg m e =>
    let d := 2 ^ (-e).toNat
    let (lo, r) := if 0 ≤ e then (m * 2 ^ e.toNat, 0) else (m / d, m % d)
    let a := if 0 ≤ e then lo else if roundsUp mode neg lo r d then lo + 1 else lo
    let n : Int := if neg then -(a : Int) else (a : Int)
    if intLo t ≤ n ∧ n ≤ intHi t then (wrapN t.width n, flIf (decide (r ≠ 0)) flNX)
    else (wrapN t.width (clampInt t n), flNV)

/-- EmaxElem (04 R72). -/
def emaxElem : ElemType → Int
  | .e4m3 => 8
  | .e5m2 => 15
  | .t8 => 12
  | _ => 4

/-- ScaleByte (04 R72). -/
def scaleByte (t : ElemType) : FV → Nat
  | .nan | .inf _ => 255
  | .fin _ m e =>
    if m = 0 then 0
    else
      let x := (Nat.log2 m : Int) + e - emaxElem t
      ((if x < -127 then -127 else if 127 < x then 127 else x) + 127).toNat

/-- Canon(t) (04 R65). -/
def canon (t : ElemType) : Nat :=
  match fmtOf t with
  | some f => f.canon
  | none => if t = .t6 then 0x20 else 0x80

/-- Round or RoundTaper into a floating, scaled or tapered type. -/
def roundElem (t : ElemType) (mode : RMode) (x : FV) : Nat × Flags :=
  match fmtOf t with
  | some f => roundTo f mode x
  | none => roundTaper (t == .t6) mode x

/-- Negate. -/
def FV.neg : FV → FV
  | .nan => .nan
  | .inf n => .inf (!n)
  | .fin n m e => .fin (!n) m e

/-- Multiply by a power of two. -/
def FV.scale (x : FV) (k : Int) : FV :=
  match x with
  | .fin n m e => .fin n m (e + k)
  | y => y

/-- Signed value of a finite, at exponent e0 no greater than its own. -/
def signedAt (neg : Bool) (m : Nat) (e e0 : Int) : Int :=
  let a : Int := ((m * 2 ^ (e - e0).toNat : Nat) : Int)
  if neg then -a else a

/-- Exact sum of two terms (04 R66, 09 R181). -/
def FV.add : FV → FV → FV × Flags
  | .nan, _ => (.nan, 0)
  | _, .nan => (.nan, 0)
  | .inf a, .inf b => if a = b then (.inf a, 0) else (.nan, flNV)
  | .inf a, .fin _ _ _ => (.inf a, 0)
  | .fin _ _ _, .inf b => (.inf b, 0)
  | .fin n1 m1 e1, .fin n2 m2 e2 =>
    if m1 = 0 ∧ m2 = 0 then (.fin (n1 && n2) 0 0, 0)
    else
      let e := min e1 e2
      let n := signedAt n1 m1 e1 e + signedAt n2 m2 e2 e
      (.fin (decide (n < 0)) n.natAbs e, 0)

/-- Exact product (09 R181). -/
def FV.mul : FV → FV → FV × Flags
  | .nan, _ => (.nan, 0)
  | _, .nan => (.nan, 0)
  | .inf a, .inf b => (.inf (a != b), 0)
  | .inf a, .fin b m _ => if m = 0 then (.nan, flNV) else (.inf (a != b), 0)
  | .fin a m _, .inf b => if m = 0 then (.nan, flNV) else (.inf (a != b), 0)
  | .fin a m e, .fin b k f => (.fin (a != b) (m * k) (e + f), 0)

/-- Exact a × b + d (09 R181). -/
def FV.fma (a b d : FV) : FV × Flags :=
  let (p, f) := a.mul b
  let (x, g) := p.add d
  (x, f ||| g)

/-- Whether a value is NaN. -/
def FV.isNan : FV → Bool
  | .nan => true
  | _ => false
/-- Whether a value is NaN or infinite, the NF of 04 R67. -/
def FV.nonFinite : FV → Bool
  | .fin _ _ _ => false
  | _ => true

/-- The total order of 09 R182 on values that are not NaN: -0 is below +0. -/
def FV.ltOrd : FV → FV → Bool
  | .inf a, .inf b => a && !b
  | .inf a, .fin _ _ _ => a
  | .fin _ _ _, .inf b => !b
  | .fin n1 m1 e1, .fin n2 m2 e2 =>
    match n1, n2 with
    | true, false => true
    | false, true => false
    | false, false => cmpMag m1 e1 m2 e2 == .lt
    | true, true => cmpMag m2 e2 m1 e1 == .lt
  | _, _ => false

/-- The comparison of 09 R198 on values that are not NaN: -0 equals +0. -/
def FV.eqNum (x y : FV) : Bool :=
  match x, y with
  | .fin _ 0 _, .fin _ 0 _ => true
  | x, y => !x.ltOrd y && !y.ltOrd x
/-- See `FV.eqNum`. -/
def FV.ltNum (x y : FV) : Bool := x.ltOrd y && !x.eqNum y

/-- NF of a floating result of an arith instruction (09 R178). -/
def nfOf (t : ElemType) (b : Nat) : Flags := flIf (dec t b).nonFinite flNF

end Sys2Proof.Machine
end

