-- ==== Sys2Proof/Machine/Regs.lean ====
section
/-! DEFINITION. Regs.lean: reading the register blocks of the HXD register space (25 R437 to R439, R459, 05 R81, R84, 18 R348,
R356, R360, 03 R51, 12 R254, 22 R413, 20 R396, 25 R442, R446, 26 R449). A register reads the fields its table gives and zero
elsewhere (00 R4). -/

namespace Sys2Proof.Machine

/-- Round a quotient up. -/
def ceilDiv (a b : Nat) : Nat := (a + b - 1) / b

/-- The least k with n at most 2^k. -/
def ceilLog2 (n : Nat) : Nat := if n ≤ 1 then 0 else Nat.log2 (n - 1) + 1

/-- Elements of one chunk (22 R405). -/
def Bucket.wc (b : Bucket) : Nat := if b.fp32 then 32 else 64

/-- Chunks of a bucket (22 R405). -/
def Bucket.nchunks (b : Bucket) : Nat := ceilDiv b.count b.wc

/-- Bytes of bucket store per chunk (22 R404). -/
def Bucket.chunkBytes (b : Bucket) : Nat :=
  match b.order with
  | .slot => 8
  | .tree => Nat.max 8 (8 + 4 * b.wc * ceilLog2 b.contrib)
  | .arrival => 8 + 8 * ceilDiv b.contrib 64

/-- Bytes of bucket store in use (22 R404). -/
def Stack.storeUsed (k : Stack) : Nat := ((vals k.buckets).map (fun b => b.nchunks * b.chunkBytes)).sum

/-- Bytes of the bucket store that per-chunk state may use: 96 MiB less the staging area (22 R404). -/
def storeSize : Nat := 96 * 2 ^ 20 - 65536 * 128

/-- General staging entries (22 R409). -/
def stageSize : Nat := 64512

/-- The code of a tag's state (03 R50). -/
def TagSt.code : TagSt → Nat
  | .free => 0 | .live => 1 | .held => 2 | .draining => 3

/-- A tag-table entry as its word (03 R50). -/
def TagEnt.word (e : TagEnt) : Nat :=
  2 ^ 62 * e.st.code + 2 ^ 58 * (e.depth % 16) + 2 ^ 46 * (e.parent % 4096) + 2 ^ 16 * (e.quota % 2 ^ 24) + e.gen.toNat

/-- TGA_COUNT[11:0] (03 R51). -/
def State.tagCount (s : State) : Nat := ((upFrom 1 4094).filter (fun t => (s.tag t).st != .free)).length

/-- The code of a bucket's state; FREE is 0 (22 R413). -/
def BkSt.code : BkSt → Nat
  | .open_ => 1 | .running => 2 | .done => 3 | .failed => 4 | .nonfinite => 5

/-- The code of a thermal state (12 R254). -/
def Therm.code : Therm → Nat
  | .normal => 0 | .warm => 1 | .draining => 2 | .selfref => 3

/-- The code of a die's state (20 R396). -/
def DieSt.code : DieSt → Nat
  | .live => 0 | .fencing => 1 | .resetting => 2 | .held => 3

/-- The code of a Salder port's state (25 R446). -/
def PortSt.code : PortSt → Nat
  | .down => 0 | .training => 1 | .up => 2 | .failed => 3

/-- MG_STATE (26 R449). -/
def PkgSt.code : PkgSt → Nat
  | .off => 0 | .starting _ => 1 | .running => 2 | .startFail => 3 | .tripped => 4

/-- Instances of a block (25 R438). -/
def blockInst (id : Nat) : Nat := if id = 2 then 64 else if id = 7 ∨ id = 8 then 32 else 1

/-- Bytes of one instance of a block: the last byte its table names (25 R438, log 20). -/
def blockSize : Nat → Nat
  | 1 => 0x10 | 2 => 0x40 | 3 => 0x30 | 4 => 0x9000 | 5 => 0x1000 | 6 => 0x800 | 7 => 0x2_0000 | 8 => 0x8_0000_0000
  | 9 => 0x40 | 10 => 0x320 | 11 => 0x9000 | 12 => 0x20 | 13 => 0x4_0338
  | _ => 0

/-- Word of the capability list at an offset (25 R438): the view apertures' BASE and STRIDE are those of 12 R250. -/
def capWord (off : Nat) : Nat :=
  let i := off / 32
  let id := i + 1
  if 13 ≤ i then 0
  else match off / 8 % 4 with
    | 0 => id + 2 ^ 16 + 2 ^ 24 * blockInst id + 2 ^ 32 * (if i = 12 then 0 else 32 * (i + 1))
    | 1 => if id = 8 then 0x18_0000_0000 else Config.blockBase id
    | 2 => if id = 8 then 2 ^ 37 else Config.blockStride id
    | _ => blockSize id

/-- Key of a register with no behaviour of its own. -/
def regKey (id off : Nat) : Nat := id * 2 ^ 24 + off

/-- The PASID that every ATS and PRI request of an engine carries (25 R439). -/
def State.pasid (s : State) : Nat := ((look s.hxd.regs (regKey 1 8)).getD 0).toNat % 2 ^ 20

/-- Launches in queue q (05 R84). -/
def State.queueDepth (s : State) (q : Nat) : Nat :=
  (s.launches.filter (fun e => e.2.prio == q && (match e.2.state with | .queued | .switchedOut => true | _ => false))).length

/-- Launches placed and not yet complete (05 R84). -/
def State.runningCount (s : State) : Nat :=
  (s.launches.filter (fun e => e.2.onMesh)).length

/-- An 8-byte word of the entry of a format window or stride pattern (04 R73, 12 R259): `regs` holds its words, with CTRL in
bits [31:0] of word `ci`. -/
def FWin.word (w : FWin) (ci i : Nat) : Nat :=
  let r := (w.regs.getD i 0).toNat
  if i = ci then w.ctrl.toNat + r / 2 ^ 32 * 2 ^ 32 else r

/-- Format window n: an entry no one has written is zero. -/
def Hxd.win (h : Hxd) (n : Nat) : FWin := (look h.fw n).getD ⟨0, []⟩
/-- Stride pattern n. -/
def Hxd.pat (h : Hxd) (n : Nat) : FWin := (look h.spt n).getD ⟨0, []⟩
/-- Salder port n. -/
def Hxd.port (h : Hxd) (n : Nat) : Port := (look h.ports n).getD Port.reset

/-- Trap-record words of one lane (18 R356). -/
def Ring.word (r : Ring) : Nat → Nat
  | 0 => r.base.toNat
  | 1 => r.ctl.toNat
  | 2 => r.head.toNat
  | _ => r.done.toNat

/-- Word of the RBD block of stack k (12 R254, 22 R413). -/
def Stack.regWord (k : Stack) (off : Nat) : Nat :=
  if off = 0x08 then k.deadG.length % 2 ^ 21
  else if off = 0x10 then 2 ^ 32 * k.alerts.toNat + k.threshold
  else if off = 0x18 then 2 ^ 8 * k.therm.code + k.temp % 256
  else if off = 0x20 then 2 ^ 16 * ((storeSize - k.storeUsed) / 1024) + (4096 - k.buckets.length)
  else if off = 0x28 then stageSize - k.stage
  else if 0x1_0000 ≤ off ∧ off < 0x2_0000 then
    match look k.buckets ((off - 0x1_0000) / 16) with
    | none => 0
    | some b =>
      if off % 16 = 0 then
        2 ^ 32 * b.dups.toNat + 2 ^ 16 * (b.tag % 4096) + 2 ^ 8 * b.flags.toNat + b.st.code
      else 2 ^ 32 * b.retries.toNat + b.applied.toNat
  else 0

/-- Corrected errors of a die and, for a compute die, of its cell's RBD (20 R396). -/
def State.correctedOf (s : State) (d : Nat) : Nat :=
  ((s.die d).corrected + (if d < 64 then (s.stack (dieCell d)).corrected else 0)).toNat

/-- Word of the containment block (20 R396). -/
def State.containWord (s : State) (off : Nat) : Nat :=
  if off = 0x08 then 2 ^ 32 * s.hxd.audits.toNat + s.hxd.auditLog2
  else if off = 0x10 then nb s.hxd.pkgFailed
  else if 0x100 ≤ off ∧ off < 0x100 + 8 * 68 then
    let d := (off - 0x100) / 8
    2 ^ 32 * s.correctedOf d + 2 ^ 4 * Nat.min 255 (s.die d).fences + (s.die d).st.code
  else 0

/-- Word of a Salder port (25 R446). -/
def Port.word (p : Port) : Nat :=
  2 ^ 32 * p.replays.toNat + 2 ^ 16 * (if p.recorded then p.partner % 4096 else 0) + 2 * p.st.code + nb (bit p.ctl.toNat 0)

/-- Word of the Salder block (25 R446). -/
def Hxd.salderWord (h : Hxd) (off : Nat) : Nat :=
  if off = 0 then h.pkgid.toNat
  else if 0x100 ≤ off ∧ off < 0x100 + 8 * 64 then (h.port ((off - 0x100) / 8)).word
  else if 0x1000 ≤ off then ((look h.regs (regKey 11 off)).getD 0).toNat
  else 0

/-- Bytes of the mailbox as one word. -/
def mboxWord (m : List Byte) (off : Nat) : Nat := leNat (((m ++ List.replicate 4096 0).drop off).take 8)

/-- MG_SLOT (26 R449): the slot running, the slot for the next start, the failed starts counted, the security version that runs. -/
def Mgmt.slotWord (m : Mgmt) : Nat :=
  m.slot % 2 + 2 * (m.selected % 2) + 4 * ((look m.fails 200).getD 0 % 4) + 2 ^ 16 * ((look m.fwVersion m.slot).getD 0 % 65536)

/-- Word of the management block (26 R449). -/
def Mgmt.word (m : Mgmt) (off : Nat) : Nat :=
  if off = 0 then m.st.code
  else if off = 0x08 then m.plimit
  else if off = 0x10 then m.slotWord
  else if off = 0x18 then m.evhead.toNat
  else if off = 0x20 then m.evdone.toNat
  else if off = 0x28 then m.cmd.toNat % 2 ^ 24
  else if 0x1000 ≤ off ∧ off < 0x2000 then mboxWord m.mbox (off - 0x1000)
  else if 0x1_0000 ≤ off ∧ off < 0x1_1000 then (m.jnow.getD ((off - 0x1_0000) / 8) 0).toNat
  else if 0x1_1000 ≤ off ∧ off < 0x1_2000 then (m.jprev.getD ((off - 0x1_1000) / 8) 0).toNat
  else if 0x2_0000 ≤ off ∧ off < 0x4_0000 then
    match look m.events ((off - 0x2_0000) / 32) with
    | none => 0
    | some e => match off / 8 % 4 with
      | 0 => e.1.toNat
      | 1 => e.2.1.toNat
      | 2 => e.2.2.toNat
      | _ => 0
  else if 0x4_0000 ≤ off ∧ off < 0x4_0338 then ((look m.sensors ((off - 0x4_0000) / 8)).getD 0).toNat
  else 0

/-- Word of the mailbox of the management connector (26 R449): MG_CMD and MG_MBOX at their places in the layout. -/
def Mgmt.connWord (m : Mgmt) (off : Nat) : Nat :=
  if off = 0x28 then m.connCmd.toNat % 2 ^ 24
  else if 0x1000 ≤ off ∧ off < 0x2000 then mboxWord m.connMbox (off - 0x1000)
  else 0

/-- A byte of that mailbox. -/
def Mgmt.connByte (m : Mgmt) (off : Nat) : Byte := BitVec.ofNat 8 (m.connWord (off / 8 * 8) / 2 ^ (8 * (off % 8)))

/-- The host reaches the package (26 R450, R453): the application cores, or the endpoint, start in the last step of a start, and a trip takes
their power. -/
def State.hostUp (s : State) : Bool := s.mgmt.st == .running

/-- Word of a launch port block (05 R81, 18 R348). -/
def Die.portWord (d : Die) (off : Nat) : Nat :=
  if off = 0x08 then d.seq.toNat
  else if off = 0x28 then 2 ^ 8 * nb d.monitor.isSome + d.monResult.toNat
  else if off = 0x30 then d.wdlimit.toNat
  else if off = 0x38 then d.wdsave.toNat
  else 0

/-- Word of the placement arbiter (05 R84, 18 R360). -/
def State.arbiterWord (s : State) (off : Nat) : Nat :=
  if off = 0 then s.hxd.paAging.toNat
  else if off = 8 then
    2 ^ 48 * s.queueDepth 3 + 2 ^ 32 * s.queueDepth 2 + 2 ^ 16 * s.queueDepth 1 + s.queueDepth 0
  else if off = 0x10 then (s.launches.filter (fun e => e.2.state == .waiting)).length
  else if off = 0x18 then s.runningCount
  else if off = 0x20 then s.hxd.saveBase.toNat
  else if off = 0x28 then 2 ^ 32 * (s.hxd.saveSlots - s.hxd.slotsUsed.length) + s.hxd.saveSlots
  else 0

/-- Word of the tag allocator (03 R51): entry 0 reads LIVE and entry 4095 zero. -/
def State.tagWord (s : State) (off : Nat) : Nat :=
  if off = 0 then s.hxd.tgaLimit
  else if off = 8 then 2 ^ 16 * s.hxd.tagWait.length + s.tagCount
  else if 0x1000 ≤ off ∧ off < 0x9000 then (s.tag ((off - 0x1000) / 8)).word
  else 0

/-- The 8-byte word at an offset of instance `inst` of a block. -/
def State.regWord (s : State) (id inst off : Nat) : Nat :=
  match id with
  | 0 => capWord off
  | 1 => if off = 0 then 2 * (s.mgmt.hport % 8) + nb s.mgmt.endpoint else ((look s.hxd.regs (regKey 1 off)).getD 0).toNat
  | 2 => if inst < 64 ∧ (s.die inst).st = .live then (s.die inst).portWord off else 0
  | 3 => s.arbiterWord off
  | 4 => s.tagWord off
  | 5 => (s.hxd.win (off / 64)).word 4 (off / 8 % 8)
  | 6 => (s.hxd.pat (off / 32)).word 0 (off / 8 % 4)
  | 7 => if inst < 32 then (s.stack inst).regWord off else 0
  | 9 => if off < 0x20 then s.hxd.laneH.word (off / 8) else s.hxd.laneN.word (off / 8 - 4)
  | 10 => s.containWord off
  | 11 => s.hxd.salderWord off
  | 12 => ((look s.hxd.regs (regKey 12 off)).getD 0).toNat
  | 13 => s.mgmt.word off
  | _ => 0

/-- Instance and offset within it of an offset in a block's range. -/
def blockPlace (id off : Nat) : Nat × Nat :=
  if blockInst id = 1 then (0, off) else (off / Config.blockStride id, off % Config.blockStride id)

/-- The byte at an address of the HXD register space (25 R437, R459); an offset that no table names reads zero. -/
def State.regByte (s : State) (pa : Nat) : Byte :=
  let o := pa - Config.capBase
  let id := o / 0x100_0000
  let (inst, off) := blockPlace id (o % 0x100_0000)
  if 0 < id ∧ blockSize id ≤ off then 0
  else BitVec.ofNat 8 (s.regWord id inst (off / 8 * 8) / 2 ^ (8 * (off % 8)))

end Sys2Proof.Machine
end

