-- ==== Sys2Proof/Machine/View.lean ====
section
/-! DEFINITION. View.lean: what a read finds at a physical address: cells (03 R46), view apertures of format windows (04 R73 to
R78), registers and devices (25 R437); and reads through a translation cache (11 R247). -/

namespace Sys2Proof.Machine

/-- A byte with its poison mark (20 R378). -/
abbrev PByte := Byte × Bool

/-- EN of a window or pattern (04 R73, 12 R259). -/
def FWin.en (w : FWin) : Bool := bit w.ctrl.toNat 31
/-- SBLK (04 R73). -/
def FWin.sblk (w : FWin) : Nat := fld w.ctrl.toNat 12 4
/-- FILL (04 R73). -/
def FWin.fill (w : FWin) : Nat := fld w.ctrl.toNat 10 2
/-- FMT (04 R73). -/
def FWin.fmt (w : FWin) : Option ElemType := decTy (fld w.ctrl.toNat 0 8)
/-- Word i of a window as a number: SBASE, SLIMIT, SCBASE, VIEW. -/
def FWin.at (w : FWin) (i : Nat) : Nat := (w.regs.getD i 0).toNat

/-- Width of an element in memory (04 R57). -/
def memWidth (t : ElemType) : Nat := if t = .t6 then 6 else t.width

/-- Elements of a window's source (04 R75). -/
def FWin.count (w : FWin) : Nat :=
  match w.fmt with
  | some t => 8 * (w.at 1 - w.at 0) / memWidth t
  | none => 0

/-- Bytes of a decoded element: BF16 or FP32 (04 R75). -/
def FWin.outBytes (w : FWin) : Nat := if w.fill = 1 then 2 else 4

/-- The window expands into a view. -/
def FWin.expands (w : FWin) : Bool := w.en && (w.fill == 1 || w.fill == 2)

/-- The bits of element i of a packed source at physical address p (04 R57). -/
def elemBits (m : Memory) (t : ElemType) (p i : Nat) : Nat :=
  if t = .t6 then m.nat (p + 3 * (i / 4)) 3 / 2 ^ (6 * (i % 4)) % 64
  else m.nat (p + i * (t.width / 8)) (t.width / 8)

/-- FillElement (04 R75) of an element's bits and its scale code. -/
def FWin.decode (w : FWin) (t : ElemType) (bits c : Nat) : Nat :=
  let v := dec t bits
  let v := if w.sblk = 0 then v else if c = 255 then .nan else v.scale ((c : Int) - 127)
  (roundTo (if w.fill = 1 then fmtBf16 else fmt32) .rne v).1

/-- FillElement (04 R75) of element i of the source. -/
def fillElement (m : Memory) (w : FWin) (i : Nat) : Nat :=
  match w.fmt with
  | none => 0
  | some t => w.decode t (elemBits m t (w.at 0) i) (m.nat (w.at 2 + i / 2 ^ w.sblk) 1)

/-- The enabled window whose view holds an address, and the element decoded there (04 R75, R76). -/
def Hxd.viewAt (h : Hxd) (pa : Nat) : Option (FWin × Nat) :=
  (vals h.fw).findSome? (fun w =>
    if w.expands && decide (w.at 3 ≤ pa) && decide (pa < w.at 3 + w.count * w.outBytes) then
      some (w, (pa - w.at 3) / w.outBytes) else none)

/-- The first source byte of element i (04 R57). -/
def FWin.srcAt (w : FWin) (t : ElemType) (i : Nat) : Nat :=
  w.at 0 + (if t = .t6 then 3 * (i / 4) else i * (t.width / 8))

/-- What the RBD reads for n bytes of a view (04 R75, R78): the bytes of the elements decoded there, and of their scales. -/
def Hxd.viewSpans (h : Hxd) (pa n : Nat) : List (Nat × Nat) :=
  ((upFrom pa n).flatMap (fun a => match h.viewAt a with
    | some (w, i) => match w.fmt with
      | some t => (w.srcAt t i, if t = .t6 then 3 else t.width / 8) :: (if w.sblk = 0 then [] else [(w.at 2 + i / 2 ^ w.sblk, 1)])
      | none => []
    | none => [])).eraseDups

/-- The 1 KiB blocks, each of one row (12 R251), that stretches of bytes lie in. -/
def blocksOf (l : List (Nat × Nat)) : List Nat := (l.flatMap (fun p => [p.1 / 1024, (p.1 + p.2 - 1) / 1024])).eraseDups

/-- Whether the source or scale of element i is poison (20 R378). -/
def State.elemPoison (s : State) (w : FWin) (i : Nat) : Bool :=
  match w.fmt with
  | none => false
  | some t =>
    s.cellPoisoned 0 (w.srcAt t i) (if t = .t6 then 3 else t.width / 8) false ||
    (w.sblk != 0 && s.cellPoisoned 0 (w.at 2 + i / 2 ^ w.sblk) 1 false)

/-- A byte of a view aperture; outside every enabled view it is zero (04 R76). -/
def State.viewByte (s : State) (pa : Nat) : PByte :=
  match s.hxd.viewAt pa with
  | none => (0, false)
  | some (w, i) =>
    (BitVec.ofNat 8 (fillElement s.mem w i / 2 ^ (8 * ((pa - w.at 3) % w.outBytes))), s.elemPoison w i)

/-- What a read of n bytes of one granule finds at physical address pa, under a tag and policy (03 R46, 25 R437); `rn` numbers
the read among those of devices (log 13). -/
def State.readPa (s : State) (rn tag pa n : Nat) (zero : Bool) : List PByte :=
  match region pa with
  | .ordinary =>
    let bad := (touchedUnits pa n).filter (fun u => s.cellPoisoned tag (128 * u) 1 zero)
    ((s.cellRead tag pa n zero).zipIdx pa).map (fun e => (e.1, bad.contains (e.2 / 128)))
  | .view => (upFrom pa n).map s.viewByte
  | .hxd => (upFrom pa n).map (fun a => (s.regByte a, false))
  | .pcie _ => (upFrom pa n).map (fun a => (Config.deviceByte rn a, false))
  | _ => List.replicate n (0, false)

/-- Cut n bytes at an address into pieces that each lie in one 1 KiB block: at most one more than the whole blocks. -/
def pieces (va n : Nat) : List (Nat × Nat) :=
  if n = 0 then []
  else (upFrom (va / 1024) ((va + n - 1) / 1024 - va / 1024 + 1)).map (fun b =>
    let lo := Nat.max va (1024 * b)
    (lo, Nat.min (va + n) (1024 * (b + 1)) - lo))

/-- Answer of a read through a translation cache. -/
inductive XRd where
  | data (bs : List PByte)
  | miss (va : Nat)
  | fault (va : Nat) (r : PReason)
  deriving DecidableEq, Repr

/-- Read n bytes at a virtual address through an engine's cache (11 R247, R248). -/
def State.readVa (s : State) (e : Engine) (rn tag : Nat) (zero : Bool) (va n : Nat) : XRd :=
  (pieces va n).foldl (fun r p => match r with
    | .data bs => match s.xlate e (p.1 % 2 ^ 64) tag .read with
      | .ok pa => .data (bs ++ s.readPa rn tag pa p.2 zero)
      | .miss => .miss (p.1 % 2 ^ 64)
      | .fault r => .fault (p.1 % 2 ^ 64) r
    | r => r) (.data [])

/-- Bytes without their marks. -/
def bytesOf (ps : List PByte) : List Byte := ps.map Prod.fst
/-- Whether any byte is poison. -/
def anyPoison (ps : List PByte) : Bool := ps.any Prod.snd

end Sys2Proof.Machine
end

