-- ==== Sys2Proof/Machine/Objects.lean ====
section
/-! DEFINITION. Objects.lean: counters and job control blocks in memory (16 R312 to R318), the submission of a launch
(05 R82, R83, R86) and what a change of a JCB sets going. Each operation is one step at the RBD (16 R311). -/

namespace Sys2Proof.Machine

/-- The alert of a row (12 R256): of one whose counter reached the threshold, in a bank that is open, it is counted, the bank closed, and
the rows beside it refreshed. -/
def Stack.alert (x : Stack) (tc ch bank row : Nat) : Stack :=
  if x.therm = .selfref ∨ (look x.closed (ch * 48 + bank)).isSome ∨ (look x.rows (rowAt ch bank row)).getD 0 < x.threshold then x
  else { x with
    alerts := x.alerts + 1, closed := put x.closed (ch * 48 + bank) tc
    rows := ((upFrom 0 5).map (fun i => row + i - 2)).foldl (fun t r => del t (rowAt ch bank r)) x.rows }

/-- A stack accepts no request now: it drains, it refreshes itself, it is reset in place (12 R258, 20 R392). -/
def State.stackShut (s : State) (k : Nat) : Bool :=
  let x := s.stack k
  x.resetting || x.therm == .draining || x.therm == .selfref

/-- A line of the 1 KiB block of an address is held writable by a die that is fenced and not yet salvaged: its recall waits (20 R389). -/
def State.recallWaits (s : State) (pa : Nat) : Bool :=
  [2 * paStack pa, 2 * paStack pa + 1].any (fun d =>
    (s.die d).st == .fencing && (s.die d).dirty.any (fun l => decide (l / 8 = pa / 1024)))

/-- The bank of a place in DRAM refreshes after an alert (12 R256). -/
def State.bankShut (s : State) (a : Nat) : Bool := (look (s.stack (paStack a)).closed (bankOf a)).isSome

/-- A request of tag t to ordinary memory at pa is held by its sender: its stack is shut, a bank that it opens refreshes after an alert (12 R256,
R258), or a recall of its line waits (20 R389). -/
def State.placeHeld (s : State) (t pa : Nat) (zero write : Bool) : Bool :=
  s.stackShut (paStack pa) || (s.dramOf t pa zero write).any s.bankShut || (s.answering t pa zero == some 0 && s.recallWaits pa)

/-- A request for n bytes of one granule is held by its sender; one of a view waits for the sources and scales that it decodes (04 R78). -/
def State.paHeld (s : State) (pa : Nat) (n : Nat := 1) (t : Nat := 0) (zero : Bool := false) (write : Bool := false) : Bool :=
  match region pa with
  | .ordinary => s.placeHeld t pa zero write
  | .view => s.stackShut (paStack pa) || (s.hxd.viewSpans pa n).any (fun p => s.placeHeld 0 p.1 false false)
  | _ => false

/-- A read of n bytes of one granule by die d, or by no die, at its coherence point (11 R244, 15 R298): what it reads is recalled from every
other die, and the rows open; through a view, those of the sources and scales that the RBD decodes (04 R78). -/
def State.recallRead (s : State) (pa n tag : Nat) (zero : Bool) (d : Option Nat) : State :=
  match region pa with
  | .ordinary => s.fetched tag pa n zero d
  | .view =>
    let l := s.hxd.viewSpans pa n
    (blocksOf l).foldl (fun s b => s.opensAt (1024 * b) 1) (l.foldl (fun s p => s.recall p.1 p.2 none) s)
  | _ => s

/-- The die of a core, for `recallRead`: an NMV core is on none. -/
def dieOf? (c : Nat) : Option Nat := if isNmv c then none else some (coreDie c)

/-- Levels of an Sv57 walk by the IOMMU (11 R246, 25 R440): it meets a leaf, or no translation, or a stack that is shut. -/
inductive Walk where
  | leaf (l : Leaf)
  | none
  | held
  deriving DecidableEq, Repr

/-- The walk of `n` levels from the table at physical address t, whose reads are of tag 0 at their coherence points (25 R440): the entries read,
and what it meets. The form of an entry is that of the RISC-V privileged architecture; a poisoned entry gives no translation (log 12). -/
def State.walk (s : State) (x : ProcCtx) (va : Nat) : Nat → Nat → List Nat × Walk
  | 0, _ => ([], .none)
  | n + 1, t =>
    let p := t + 8 * (va / 2 ^ (12 + 9 * n) % 512)
    let size := 2 ^ (12 + 9 * n)
    let e := s.mem.nat p 8
    let base := fld e 10 44 * 4096
    if region p ≠ .ordinary then ([], .none)
    else if s.paHeld p then ([], .held)
    else if s.cellPoisoned 0 p 8 false ∨ !bit e 0 ∨ (!bit e 1 ∧ bit e 2) then ([p], .none)
    else if bit e 1 ∨ bit e 3 then
      ([p], if base % size ≠ 0 ∨ !(if bit e 4 then x.user else x.super) then .none
        else .leaf ⟨va / size * size, size, base, bit e 1, bit e 2⟩)
    else
      let r := s.walk x va n base
      (p :: r.1, r.2)

/-- The entries that the IOMMU reads for an address, and its answer (11 R246): in self-hosted use it walks the tables of HX_PASID's process
context, where the model holds one; otherwise the leaves it was given answer (25 R440, R441, log 12). -/
def State.iommuPath (s : State) (va : Nat) : List Nat × Walk :=
  let listed : List Nat × Walk := match s.iommu.find? (fun l => decide (l.va ≤ va) && decide (va < l.va + l.size)) with
    | some l => ([], .leaf l)
    | none => ([], .none)
  if s.mgmt.endpoint then listed
  else match look s.roots s.pasid with
    | some x => s.walk x va 5 x.root
    | none => listed

/-- The answer of the IOMMU for an address (11 R246). -/
def State.iommuWalk (s : State) (va : Nat) : Walk := (s.iommuPath va).2

/-- The leaf with which the IOMMU answers (11 R246): a leaf of 256 TiB is used as its 512 GiB pages. -/
def State.iommuLeaf (s : State) (va : Nat) : Option Leaf :=
  match s.iommuWalk va with
  | .leaf l =>
    some (if l.size ≠ 2 ^ 48 then l
      else { l with va := va / 2 ^ 39 * 2 ^ 39, pa := l.pa + (va / 2 ^ 39 * 2 ^ 39 - l.va), size := 2 ^ 39 })
  | _ => none

/-- An entry as the IOMMU leaves it (11 R246): A is set, and D where it grants a write. -/
def entryUsed (e : Nat) (d : Bool) : Nat := e ||| (2 ^ 6 + 2 ^ 7 * nb d)

/-- What a translation by the IOMMU does to memory (11 R246, 25 R440): the entries it reads are recalled and their rows open; the leaf that
answers has its A bit set, and its D bit where the answer grants a write. -/
def State.walked (s : State) (va : Nat) (write : Bool) : State :=
  let x := s.iommuPath va
  let s1 := x.1.foldl (fun s p => s.recallRead p 8 0 false none) s
  match x.2, x.1.getLast? with
  | .leaf l, some p =>
    let e := s.mem.nat p 8
    let e' := entryUsed e (write && l.w)
    if e' = e then s1 else s1.memWrite 0 p (toBytes 8 e')
  | _, _ => s1

/-- The physical address that an engine's access to an address of tag 0 finds: in its cache, else by the IOMMU (11 R247). -/
def State.placeOf (s : State) (e : Engine) (va : Nat) : Option Nat :=
  match s.xlate e va 0 .read with
  | .ok pa => some pa
  | .miss => (s.iommuLeaf va).map (fun l => l.pa + (va - l.va))
  | .fault _ => none

/-- A counter that no program has written: 16 zero bytes (16 R312). -/
structure Counter where
  count : Word
  posted : Bool
  past : Bool
  target : Nat
  deriving DecidableEq, Repr

/-- Read the counter at a physical address (16 R312). -/
def State.counter (s : State) (pa : Nat) : Counter :=
  let t := s.mem.nat (pa + 8) 8
  ⟨BitVec.ofNat 64 (s.mem.nat pa 8), bit t 63, bit t 62, fld t 0 48⟩

/-- A counter as any read finds it (16 R312, 04 R76): `rn` numbers the read among those of devices (log 13). -/
def State.counterAt (s : State) (rn pa : Nat) : Counter :=
  let bs := bytesOf (s.readPa rn 0 pa 16 false)
  let t := leNat (bs.drop 8)
  ⟨BitVec.ofNat 64 (leNat (bs.take 8)), bit t 63, bit t 62, fld t 0 48⟩

/-- The first poisoned unit among n bytes that a read finds at a physical address (20 R378). -/
def State.poisonAt (s : State) (rn pa n : Nat) : Option Nat :=
  ((s.readPa rn 0 pa n false).zipIdx pa).findSome? (fun b => if b.1.2 then some (b.2 / 128 * 128) else none)

/-- Write the counter at a physical address; the reserved bits of TSTAT keep their value (16 R312). -/
def State.setCounter (s : State) (pa : Nat) (c : Counter) : State :=
  let t := s.mem.nat (pa + 8) 8
  s.memWrite 0 pa (toBytes 8 c.count.toNat ++
    toBytes 8 (2 ^ 63 * nb c.posted + 2 ^ 62 * nb c.past + 2 ^ 48 * fld t 48 14 + c.target % 2 ^ 48))

/-- The counter holds (16 R313). -/
def Counter.holds (c : Counter) : Bool := c.posted && decide ((c.target : Int) ≤ c.count.toInt)

/-- The step that sets OVER raises OVERARR on the core that acted (16 R314). -/
def overDetail (va : Word) (src : Nat) : Nat := va.toNat % 2 ^ 32 / 8 * 8 + src

/-- The counter's report to a core (16 R314): the detail word in bits [31:0], and above it one more than the number of the launch, if
its context has one. -/
def overNotice (rid : Option Nat) (va : Word) (src : Nat) : Nat :=
  overDetail va src + 2 ^ 32 * (match rid with | some r => r + 1 | none => 0)

/-- Log an entry in the mailbox of a switched-out context (18 R365): the last 127 entries are kept for kinds 3 to 6. -/
def Mailbox.log (m : Mailbox) (kind : Nat) (v : Word) : Mailbox :=
  if decide (kind < 3) && decide (384 ≤ m.ents.length) then { m with ovfl := true } else { m with ents := m.ents ++ [(kind, v)] }

/-- One bit of a CRC-32 with the IEEE 802.3 polynomial, reflected (02 R26, log 18). -/
def crcBit (c : BitVec 32) : BitVec 32 := if c.getLsbD 0 then (c >>> 1) ^^^ 0xEDB88320 else c >>> 1

/-- One byte of it. -/
def crcByte (c : BitVec 32) (b : Byte) : BitVec 32 :=
  crcBit (crcBit (crcBit (crcBit (crcBit (crcBit (crcBit (crcBit (c ^^^ b.setWidth 32))))))))

/-- CRC-32 of bytes (02 R26, log 18). -/
def crc32 (bs : List Byte) : BitVec 32 := ~~~ (bs.foldl crcByte 0xFFFF_FFFF)

/-- Physical address of a save slot (18 R360). -/
def State.slotPa (s : State) (slot : Nat) : Nat := s.hxd.saveBase.toNat + slot * 2 ^ 20

/-- Write bytes of a slot: the pool lies in ordinary memory. -/
def State.slotWrite (s : State) (slot off : Nat) (bs : List Byte) : State :=
  if region (s.slotPa slot + off) = .ordinary then s.memWrite 0 (s.slotPa slot + off) bs else s

/-- Write zeros to a range of a slot. -/
def State.slotClear (s : State) (slot off n : Nat) : State :=
  let pa := s.slotPa slot + off
  let within (u : Nat) : Bool := decide (pa ≤ 128 * u) && decide (128 * (u + 1) ≤ pa + n)
  if region pa = .ordinary then
    ({ s with mem := s.mem.clear pa n } : State).upStack (paStack pa) (fun k => { k with
      deadG := k.revived pa n, poison := k.poison.filter (fun u => !within u), owner := k.owner.filter (fun e => !within e.1) })
  else s

/-- Words as bytes. -/
def wordBytes (l : List Nat) : List Byte := l.flatMap (toBytes 8)

/-- CRC-32 of a range of a slot. -/
def State.slotCrc (s : State) (slot off n : Nat) : Nat := (crc32 (s.mem.bytes (s.slotPa slot + off) n)).toNat

/-- CHECK of a slot is right (18 R362). -/
def State.slotOk (s : State) (slot : Nat) : Bool := s.mem.nat (s.slotPa slot + 8) 8 == s.slotCrc slot 0x10 0x8FFF0

/-- Compute CHECK. -/
def State.slotSeal (s : State) (slot : Nat) : State := s.slotWrite slot 8 (toBytes 8 (s.slotCrc slot 0x10 0x8FFF0))

/-- An entry of a mailbox as 16 bytes: KIND in byte 0, the value in bytes 8 to 15 (18 R365). -/
def mailBytes (e : Nat × Word) : List Byte := wordBytes [e.1, e.2.toNat]

/-- The mailboxes of saved contexts are written to their slots as they stand (18 R365); CHECK covers them and follows, unless the slot was
already spoilt. A slot in a stack that is shut is written when the stack takes requests again (12 R258). -/
def State.writeMail (s0 : State) (slot : Nat) : State :=
  match look s0.saved slot with
  | none => s0
  | some x =>
    let shut := s0.paHeld (s0.slotPa slot + 0x1000)
    let s := if x.mailDue = shut then s0 else { s0 with saved := put s0.saved slot { x with mailDue := shut } }
    if shut then s
    else
    let ok := s.slotOk slot
    let m := x.k.mailbox
    let s := s.slotWrite slot 0x1000 (wordBytes [m.ev.toNat + 2 ^ 16 * nb m.ovfl + 2 ^ 32 * m.ents.length, 0] ++ m.ents.flatMap mailBytes)
    if ok then s.slotSeal slot else s

/-- Mailboxes that wait for their stack are written once it takes requests (12 R258). -/
def State.mailsDue (s : State) : State :=
  s.saved.foldl (fun s e => if e.2.mailDue then s.writeMail e.1 else s) s

/-- Change the mailbox of a save slot (18 R365). -/
def State.upMail (s : State) (slot : Nat) (f : Mailbox → Mailbox) : State :=
  match look s.saved slot with
  | none => s
  | some x => ({ s with saved := put s.saved slot { x with k := { x.k with mailbox := f x.k.mailbox } } }).writeMail slot

/-- Address of a KIND 2 entry of task q in a core's condition block, if entry i is one (07 R148, R149). -/
def Core.condCounter (k : Core) (q i : Nat) : Option Nat :=
  let off := 0x5FC0 + 16 * i
  if k.spill.nat (off + 15) 1 % 16 = 2 then some ((k.spill.nat off 8 + k.spill.nat (off + 8) 4 * q) % 2 ^ 64) else none

/-- The counter at a physical address that a switched-out context waits for, in a WAITC or in its dependency table (18 R365 kind 1). -/
def State.waitsFor (s : State) (x : Saved) (pa : Nat) : Option Word :=
  match x.k.phase with
  | .sleep (.ctr va (some p) _) => if p = pa then some va else none
  | .sleep (.ctr va none _) => if s.placeOf (engOf x.core) va.toNat = some pa then some va else none
  | .table => ((x.k.tasks.flatMap (fun e => [0, 1, 2, 3].filterMap (x.k.condCounter e.2))).find? (fun a =>
      s.placeOf (engOf x.core) a == some pa)).map (BitVec.ofNat 64)
  | _ => none

/-- Contexts switched out that wait for the counter are told (18 R365 kind 1). -/
def State.logCounter (s : State) (pa : Nat) : State :=
  s.saved.foldl (fun s e => match s.waitsFor e.2 pa with
    | some va => s.upMail e.1 (fun m => m.log 1 va)
    | none => s) s

/-- The counter at pa has come to hold: a WAITC of the core that sleeps on it, and every condition of a task in its table that names it,
are released, whatever the counter does next (16 R313). -/
def State.cameTo (s : State) (pa c : Nat) (k : Core) : Core :=
  let names (q : Nat) : Bool := [0, 1, 2, 3].any (fun i => match k.condCounter q i with
    | some a => s.placeOf (engOf c) a == some pa
    | none => false)
  { k with
    waitCame := k.waitCame || (match k.phase with
      | .sleep (.ctr _ (some p) _) => p == pa
      | .sleep (.ctr va none _) => s.placeOf (engOf c) va.toNat == some pa
      | _ => false)
    came := (k.tasks.filter (fun e => names e.2)).foldl (fun l e => addNew l (e.2, pa)) k.came }

/-- The waiters on the cores are released, and contexts switched out are told (16 R313, 18 R365). -/
def State.releaseWaiters (s : State) (pa : Nat) : State :=
  ({ s with cores := s.cores.map (fun (e : Nat × Core) => (e.1, s.cameTo pa e.1 e.2)) } : State).logCounter pa

/-- A write of n bytes at pa has made s of s0: the waiters of each counter that it has brought to hold are released (16 R313, R333). -/
def State.cameByWrite (s s0 : State) (pa n : Nat) : State :=
  (upFrom (pa / 8 - 1) ((pa + n + 7) / 8 - (pa / 8 - 1))).foldl (fun t i =>
    if (s.counter (8 * i)).holds && !(s0.counter (8 * i)).holds then t.releaseWaiters (8 * i) else t) s

/-- CheckOver and the release of waiters (16 R313). -/
def State.putCounter (s : State) (pa core : Nat) (rid : Option Nat) (va : Word) (src : Nat) (c : Counter) : State :=
  let crossed := c.posted && !c.past && decide ((c.target : Int) < c.count.toInt)
  let s' := (s.recall pa 16 none).setCounter pa { c with past := c.past || crossed }
  let s' := if c.holds && !(s.counter pa).holds then s'.releaseWaiters pa else s'
  if crossed then s'.oweEach (.overarrNotice core (overNotice rid va src)) else s'

/-- Arrive (16 R313), for core `core`, with source 0 for CNTA and 2 for the add of a CPYS. -/
def State.arrive (s : State) (pa core : Nat) (rid : Option Nat) (va : Word) (src : Nat) (n : Word) : State :=
  let c := s.counter pa
  s.putCounter pa core rid va src { c with count := c.count + n }

/-- Post (16 R313). -/
def State.post (s : State) (pa core : Nat) (rid : Option Nat) (va : Word) (t : Nat) : State :=
  let c := s.counter pa
  s.putCounter pa core rid va 1 { c with target := t, posted := true }

/-- Arrive performed for no core of this package, which takes no trap (22 R420), under a tag. A poisoned counter is not added to (20 R379): the
tag of the request is killed, and one of tag 0, which no core of this package issued, fails. -/
def State.arriveQuiet (s : State) (pa : Nat) (n : Word) (tag : Nat) : State :=
  let c := s.counter pa
  let c := { c with count := c.count + n }
  if s.cellPoisoned 0 pa 16 false then (if tag = 0 then s else s.owe (.tagKill tag 1 (pa / 128 * 128)))
  else
    let s' := (s.recall pa 16 none).setCounter pa { c with past := c.past || (c.posted && decide ((c.target : Int) < c.count.toInt)) }
    if c.holds && !(s.counter pa).holds then s'.releaseWaiters pa else s'

/-- States of a JCB (16 R315). -/
inductive JcbSt where
  | open_ | done | failed | cancelled
  deriving DecidableEq, Repr

/-- STATE of the JCB at pa (16 R315). -/
def State.jcbState (s : State) (pa : Nat) : JcbSt :=
  match s.mem.nat (pa + 0x14) 4 % 4 with
  | 0 => .open_
  | 1 => .done
  | 2 => .failed
  | _ => .cancelled

/-- The state of a JCB as any read finds it (16 R315, 04 R76), as its code: 0 OPEN, 1 DONE, 2 FAILED, 3 CANCELLED. -/
def State.jcbAt (s : State) (rn pa : Nat) : Nat := leNat (bytesOf (s.readPa rn 0 (pa + 0x14) 4 false)) % 4

/-- The code of a state (16 R315). -/
def JcbSt.code : JcbSt → Nat
  | .open_ => 0 | .done => 1 | .failed => 2 | .cancelled => 3

/-- Write STATE; its reserved bits keep their value. -/
def State.setJcbState (s : State) (pa : Nat) (st : JcbSt) : State :=
  s.memWrite 0 (pa + 0x14) (toBytes 4 (s.mem.nat (pa + 0x14) 4 / 4 * 4 + st.code))

/-- FLAGS[5:0] of a JCB. -/
def State.jcbFlags (s : State) (pa : Nat) : BitVec 6 := BitVec.ofNat 6 (s.mem.nat (pa + 0x10) 4)

/-- A launch with nothing known of it yet. -/
def Launch.blank : Launch where
  state := .accepting
  addr := 0
  die := 0
  porttag := 4096
  issuer := none
  req := 0
  recd := ⟨0, 0, 0, 0, 0, 0, 0, 0, 0, [], 0, 0, 0, [], 0⟩
  header := []
  bounds := []
  windows := []
  jdone := none
  jwait := []
  prio := 0
  placedPrio := 0
  qtc := 0
  order := 0
  x0 := 0
  y0 := 0
  master := 0
  args := []
  points := 0
  given := 0
  ranges := []
  lost := []
  hand := []
  done := []
  nfin := 0
  flags := 0
  slots := []
  clusters := []
  resume := false
  acc := 0
  evict := none
  outTc := 0
  onMesh := false
  code := 0
  failed := []

/-- Launches waiting or queued (05 R83); a pre-empted launch stands in its queue again (05 R91). -/
def State.pendingLaunches (s : State) : Nat :=
  (s.launches.filter (fun e => match e.2.state with | .waiting | .queued | .switchedOut => true | _ => false)).length

/-- Take the next number of order. -/
def State.nextOrder (s : State) : State := s.upHxd (fun h => { h with order := h.order + 1 })

/-- Submit the record at an address to the LC of a die (05 R82, R83): held while 4,096 launches wait or queue. A port tag
of 4096 stands for the record's own TAG (05 R86). -/
def State.submit (s : State) (die : Nat) (addr : Word) (porttag : Nat) (issuer : Option Nat) (req : Nat) : State :=
  let full := decide (4096 ≤ s.pendingLaunches)
  let rid := s.nextRid
  let l := { Launch.blank with state := (if full then .held else .accepting), addr := addr, die := die, porttag := porttag,
                               issuer := issuer, req := req, order := s.hxd.order }
  let s := { s.nextOrder with launches := put s.launches rid l, nextRid := rid + 1 }
  if full then s else s.owe (.launchAcceptance rid)

/-- The lowest-numbered live compute die. -/
def State.lowestLive (s : State) : Nat := ((upFrom 0 64).find? (fun d => (s.die d).st == .live)).getD 0

/-- The completing die's port, or that of the lowest live die (05 R86). -/
def State.completingDie (s : State) (d : Nat) : Nat := if (s.die d).st = .live then d else s.lowestLive

/-- The completing die of an operation of stack k's RBD (05 R86). -/
def State.stackDie (s : State) (k : Nat) : Nat := if (s.die (2 * k)).st = .live then 2 * k else 2 * k + 1

/-- Cancel a token: token 0 is never cancelled (05 R101). The arbiter acts at the cancel point. -/
def State.cancelToken (s : State) (tok : Nat) : State := if tok = 0 then s else s.owe (.cancelPoint tok)

/-- Priority of a record (02 R30). -/
def LRec.prio (r : LRec) : Nat := fld r.ctrl.toNat 30 2

/-- Launches that became eligible in this TC cycle stand in their queue in order of accepting die, and of acceptance (05 R86). -/
def Launch.before (a b : Launch) : Bool := decide (a.die < b.die) || (a.die == b.die && decide (a.acc < b.acc))

/-- Put a launch, the last of its queue, in its place among those that became eligible in the same TC cycle (05 R86): it and those it
passes trade their places. -/
def State.sortEligible (s : State) (rid : Nat) (l : Launch) : State :=
  let later := s.launches.filter (fun e => e.1 != rid && e.2.state == .queued && e.2.prio == l.prio && e.2.recd.prio == l.prio
    && e.2.qtc == l.qtc && l.before e.2)
  match (later.map (fun e => e.2.order)).min? with
  | none => s
  | some o => { s with launches := s.launches.map (fun (e : Nat × Launch) =>
      (e.1, if e.1 = rid then { e.2 with order := o }
        else if o ≤ e.2.order ∧ e.2.order < l.order then { e.2 with order := e.2.order + 1 } else e.2)) }

/-- A waiting launch becomes eligible: it enters the queue of its priority, or completes at once with T = 0 (05 R85, R86,
02 R32). -/
def State.enqueue (s : State) (rid : Nat) (l : Launch) : State :=
  let l := { l with state := .queued, prio := l.recd.prio, qtc := s.tc, order := s.hxd.order }
  let s := (s.setLaunch rid l).nextOrder.sortEligible rid l
  if l.points = 0 then s.owe (.launchComplete rid) else s.owe .placementPass

/-- What the wait list of a launch says, as reads of its JCBs find it (05 R85): the index of the first that has failed or been cancelled, or
that all are done; nothing yet otherwise, nor while one cannot be read (12 R258). A poisoned state is never taken as good (20 R379). -/
def State.waitList (s : State) (l : Launch) : Option (Option Nat) :=
  let st (j : Nat) : Nat := if anyPoison (s.readPa (s.freeIx 7) 0 (j + 0x14) 4 false) then 0 else s.jcbAt (s.freeIx 7) j
  if l.jwait.any (fun j => s.paHeld (j + 0x14) 4) then none
  else match (l.jwait.zipIdx).find? (fun j => decide (2 ≤ st j.1)) with
    | some (_, i) => some (some i)
    | none => if l.jwait.all (fun j => st j == 1) then some none else none

/-- A waiting launch looks at its wait list (05 R85): it fails with the lowest-numbered failed or cancelled JCB, or
becomes eligible once all are done. What it reads is recalled (11 R244). -/
def State.testWait (s : State) (rid : Nat) (l : Launch) : State :=
  let s := l.jwait.foldl (fun s j => s.recallRead (j + 0x14) 4 0 false (some l.die)) s
  match s.waitList l with
  | some (some i) =>
    ((s.setLaunch rid { l with state := .stopping true }).emit false (.lc l.die)
      { code := 0x0F, tag := l.recd.tag.toNat % 4096, detail := i, addr := l.addr.toNat }).owe (.launchComplete rid)
  | some none => s.enqueue rid l
  | none => s

/-- Every launch that waits on the JCB at pa looks at its wait list. -/
def State.wakeWaiters (s : State) (pa : Nat) : State :=
  s.launches.foldl (fun s e => if e.2.state = .waiting ∧ e.2.jwait.contains pa then s.testWait e.1 e.2 else s) s

/-- Events of a JCB (16 R316). -/
inductive JEv where
  | completion (flags : BitVec 6)
  | raise (n : Nat) (late : Bool)
  | flag (f : BitVec 6)
  | fail (flags : BitVec 6)
  | cancel (flags : BitVec 6)
  deriving DecidableEq, Repr

/-- OR flags into FLAGS; the step that first sets NF cancels TOKEN (16 R316, R317). -/
def State.jcbOr (s : State) (pa : Nat) (f : BitVec 6) : State :=
  let old := s.mem.nat (pa + 0x10) 4
  let s' := if f = 0 then s else s.memWrite 0 (pa + 0x10) (toBytes 4 (old ||| f.toNat))
  if bit f.toNat 4 && !bit old 4 then s'.cancelToken (s.mem.nat (pa + 0x18) 4) else s'

/-- A JCB enters FAILED (16 R317). -/
def State.jcbEnterFailed (s : State) (pa : Nat) : State :=
  ((s.setJcbState pa .failed).cancelToken (s.mem.nat (pa + 0x18) 4)).wakeWaiters pa

/-- A JCB enters DONE: its successor is submitted at the completing die (16 R317, 05 R86). A SUCC that is no multiple of 64 is submitted as it
stands (log 99). -/
def State.jcbEnterDone (s : State) (pa die : Nat) : State :=
  let succ := s.mem.nat (pa + 0x20) 8
  let s := s.setJcbState pa .done
  let s := if succ = 0 then s else s.submit (s.completingDie die) (BitVec.ofNat 64 succ) 4096 none 0
  s.wakeWaiters pa

/-- A completion or JRAISE that finds the JCB closed is discarded with a JCBLATE record (16 R316, 18 R357). -/
def State.jcbLate (s : State) (pa tag : Nat) (raise : Bool) : State :=
  s.emit false (.rbd (paStack pa))
    { code := 0x53, tag := tag, detail := (s.jcbState pa).code + 2 ^ 8 * nb raise, addr := pa }

/-- One event of the JCB at pa (16 R316), signalled under a tag, with the completing die for its successor. -/
def State.jcbEvent (s : State) (pa die tag : Nat) (e : JEv) : State :=
  let s := s.recall pa 64 none
  let expect := s.mem.nat pa 8
  let donecnt := s.mem.nat (pa + 8) 8
  match e with
  | .flag f => s.jcbOr pa f
  | .completion f =>
    let s := s.jcbOr pa f
    if s.jcbState pa = .open_ then
      let s' := s.memWrite 0 (pa + 8) (toBytes 8 (donecnt + 1))
      if donecnt + 1 < expect then s'
      else if donecnt + 1 = expect then s'.jcbEnterDone pa die
      else s'.jcbEnterFailed pa
    else s.jcbLate pa tag false
  | .raise n late =>
    if s.jcbState pa = .open_ then
      if late then s.jcbEnterFailed pa else s.memWrite 0 pa (toBytes 8 (expect + n))
    else s.jcbLate pa tag true
  | .fail f =>
    let s := s.jcbOr pa f
    if s.jcbState pa = .open_ then s.jcbEnterFailed pa else s
  | .cancel f =>
    let s := s.jcbOr pa f
    if s.jcbState pa = .open_ then (s.setJcbState pa .cancelled).wakeWaiters pa else s

/-- The event of a post. -/
def JPost.ev (f : BitVec 6) : JPost → JEv
  | .completion => .completion f
  | .fail => .fail f
  | .cancel => .cancel f

/-- A post by the hardware to a JCB, where there is one: it waits while the stack of the JCB takes no request (16 R311, 12 R258). A JCB that is
poisoned takes no event: the tag of the post is killed, and a post under tag 0, which no core awaits, fails (20 R379). -/
def State.jcbPost (s : State) (pa : Option Nat) (die tag : Nat) (p : JPost) (f : BitVec 6) : State :=
  match pa with
  | none => s
  | some pa =>
    if s.paHeld pa then
      (s.addReq { k := .jpost p f, core := 4096, rid := none, lidx := die, tag := tag, owner := 0, zero := false, va := 0, pa := pa, size := 64,
                  data := 0, pend := 0, pos := 0, iss := 0, gen := 0, tc := s.tc, done := true }).oweEach (.jcbCompletion s.nextId)
    else if s.cellPoisoned 0 pa 64 false then (if tag = 0 then s else s.owe (.tagKill tag 1 (pa / 128 * 128)))
    else s.jcbEvent pa die tag (p.ev f)

end Sys2Proof.Machine
end

