-- ==== Sys2Proof/Machine/Ops.lean ====
section
/-! DEFINITION. Ops.lean: the shared operations of a context: stopping it (18 R350, 05 R101), the freeze and the trap frame
(18 R342, R345 to R349), taking a precise trap, the return from the monitor (18 R353), stitch shadow and rewind (20 R382 to
R385). -/

namespace Sys2Proof.Machine

/-- Width and height of a record's rectangle (02 R33). -/
def LRec.width (r : LRec) : Nat := 2 ^ fld r.rect.toNat 0 4
/-- See `LRec.width`. -/
def LRec.height (r : LRec) : Nat := 2 ^ fld r.rect.toNat 4 4

/-- The cores of a launch's rectangle (02 R33). -/
def Launch.cores (l : Launch) : List Nat :=
  (upFrom 0 l.recd.height).flatMap (fun j => (upFrom 0 l.recd.width).map (fun i => coreAt (l.x0 + i) (l.y0 + j)))

/-- Declared levels that count now: the monitor has none (18 R349). -/
def Core.levels (k : Core) : Nat := if k.mon.isSome then 0 else k.ldecl

/-- SYS.MODE (07 R141). -/
def Core.sysMode (k : Core) : Word :=
  BitVec.ofNat 64 (2 ^ 11 * k.ras.length + 2 ^ 8 * k.loops.length + 2 ^ 4 * k.task.toNat
    + 8 * nb k.follow + 4 * nb k.nmv + 2 * nb k.paired + nb k.strict)

/-- The partner of a core (01 R13, 07 R151). -/
def partner (c : Nat) : Nat := if c % 2 = 0 then c + 1 else c - 1

/-- The state of a leader as its follower holds it: only FOLLOW differs, in SYS.MODE and in the frame that it forms itself (07 R151,
R152). -/
def Core.asFollower (k : Core) : Core :=
  let w5 := k.spill.nat 0x6028 8
  { k with follow := true, spill := if k.mon.isSome then k.spill.setNat 0x6028 8 (w5 / 16 * 16 + 8 + w5 % 8) else k.spill }

/-- Both cores of a pair stand at one bundle boundary: a start, a freeze, a rewind, a restore (07 R152, 18 R362). -/
def State.mirrorNow (s : State) (c : Nat) : State :=
  if (s.core c).paired then { s with followers := put s.followers (partner c) ⟨(s.core c).asFollower, []⟩ } else s

/-- An issue cycle of the leader: the follower issues what the leader issued two issue cycles before (07 R151). -/
def State.mirror (s : State) (c : Nat) : State :=
  let k := s.core c
  if !k.paired then s
  else match look s.followers (partner c) with
    | none => s
    | some f => match f.lag with
      | x :: y :: _ => { s with followers := put s.followers (partner c) ⟨x.asFollower, [y, k]⟩ }
      | l => { s with followers := put s.followers (partner c) { f with lag := l ++ [k] } }

/-- The cycle in which a core issued something has not matched yet (07 R152): the follower's comes two issue cycles later; a stall of the
pair holds no comparison back. After a cycle that did not match nothing leaves. -/
def State.unmatched (s : State) (c : Nat) (rid : Option Nat) (iss : Nat) : Bool :=
  let k := s.core c
  k.paired && k.rid == rid && (match k.phase with
    | .idle | .ended => false
    | _ => true) && (k.pairBad.any (fun n => decide (n ≤ iss)) || k.op.isNone && decide (iss ≤ k.ic) && decide (k.ic < iss + 3))

/-- The context of a core stops: its withheld entries are discarded, its flags go to its launch, and the launch's end is
looked at (18 R350, 05 R101, 22 R403). -/
def State.stopCore (s : State) (c : Nat) : State :=
  let k := s.core c
  let s := { s with followers := if k.paired then del s.followers (partner c) else s.followers
                    reqs := if k.paired then s.reqs.filter (fun e => e.2.left || e.2.core != c || e.2.rid != k.rid) else s.reqs }
  let s := s.setCore c { k with phase := .ended, sbuf := [], pend := [], bpend := [], mx := [], mxBase := none, causes := [], op := none,
                                await := [], mon := none, release := 0, stitchOp := none, bound := [],
                                tasks := [], todo := [], running := none, br := .none, out := .no,
                                waitCame := false, came := [], tfail := [], exiting := false, pairBad := none }
  match k.rid with
  | none => s
  | some r => if k.phase = .ended then s
      else (s.upLaunch r (fun l => { l with flags := l.flags ||| k.flags })).owe (.launchComplete r)

/-- Requests outstanding of the context of a core in the queues named (13 R280, R284, 22 R420). -/
def State.engsOf (s : State) (c : Nat) (kinds : List Nat) : Nat :=
  (s.engs.filter (fun e => e.2.core == c && e.2.rid == (s.core c).rid && kinds.contains e.2.eng)).length

/-- Queue entries of a core's copy engine are all taken (13 R280). -/
def State.copyFull (s : State) (c : Nat) : Bool := decide (16 ≤ s.engsOf c [0, 1, 2])

/-- States in which a cancelled context stops at once (05 R101). -/
def State.stopsNow (s : State) (c : Nat) : Bool :=
  let k := s.core c
  (match k.phase with
   | .sleep _ | .table | .idle => true
   | _ => false) || k.mon.isSome || !k.await.isEmpty || decide (k.stall = .soft) ||
  (match k.op with
   | some (.act (.slset _ _)) => s.copyFull c
   | some (.act (.sladv _ _ _)) | some (.act (.push _ _ _ _)) | some (.act (.tagnew _ _ _)) | some (.act (.lnch _)) => true
   | some (.answer id _) => match look s.reqs id with
     | some r => (match r.k with | .lnch | .tagnew _ _ => true | _ => false)
     | none => false
   | _ => false) ||
  (match k.out with
   | .saving _ => true
   | _ => false)

/-- A context in a whole-core stall that a cancellation does not end at once (05 R101). -/
def Core.stalledHard (k : Core) : Bool := k.op.isSome || decide (k.release ≠ 0) || decide (k.stall = .hard)

/-- A context is cancelled: it stops at once in the states of R101, after the stall it stands in, and otherwise at its next stitch point
or EXIT. -/
def State.cancelCore (s : State) (c : Nat) : State :=
  let k := s.core c
  if k.phase = .ended then s
  else if s.stopsNow c then s.stopCore c
  else s.setCore c { k with cancelTc := some (k.cancelTc.getD s.tc), stopNext := k.stalledHard }

/-- A cancelled context that later comes into one of the states of R101 stops as it would have at the cancel point. -/
def State.cancelMeets (s : State) (c : Nat) : State :=
  let k := s.core c
  if k.cancelTc.isNone ∨ k.phase = .ended then s
  else if s.stopsNow c then s.stopCore c
  else s.setCore c { k with stopNext := k.stopNext || k.stalledHard }

/-- Cancel every context of a launch. -/
def State.cancelCores (s : State) (l : Launch) : State := l.cores.foldl State.cancelCore s

/-- A launch fails while it is placed: every other context stops as if cancelled; its end marks DONEJCB FAILED
(18 R350). -/
def State.failLaunch (s : State) (rid : Nat) : State :=
  match look s.launches rid with
  | none => s
  | some l =>
    ((s.setLaunch rid { l with state := .stopping true }).cancelCores l).owe (.launchComplete rid)

/-- A bucket becomes FAILED: its flags are merged into its JCB, which fails, and a BKFAIL record goes out (22 R412). Shares
still queued never start (22 R415). -/
def State.failBucket (s : State) (k b reason : Nat) : State :=
  let st := s.stack k
  match look st.buckets b with
  | none => s
  | some x =>
    let s := s.setStack k { st with
      buckets := put st.buckets b { x with st := .failed }
      shares := st.shares.filter (fun e => e.1 != b)
      copies := without st.copies b
      stage := st.stage - ((vals x.chunks).map (fun c => c.staged.length)).sum }
    let s := s.jcbPost x.jcb (s.stackDie k) x.tag .fail x.flags
    s.emit false (.rbd k) { code := 0x55, tag := x.tag, detail := 2 ^ 27 * k + b, addr := reason }

/-- A share ends without BKDONE or fatally: the NMV core is free and the bucket fails (22 R412, R417). -/
def State.endShare (s : State) (c reason : Nat) : State :=
  let k := s.core c
  let s := (s.stopCore c).upCore c (fun k => { k with share := none, phase := .idle })
  match k.share with
  | none => s
  | some sh =>
    let s := match look (s.stack sh.stack).buckets sh.bucket with
      | some b => if b.st = .running ∧ b.ident = sh.ident then s.failBucket sh.stack sh.bucket reason else s
      | none => s
    if (s.stack sh.stack).shares.isEmpty then s else s.owe (.shareStart sh.stack)

/-- The context ends fatally: a record on Lane H, and its launch fails (18 R350); a share ends and its bucket fails
(22 R417). -/
def State.endFatal (s : State) (c : Nat) (t : TrapInfo) (nested shadow : Bool) : State :=
  let k := s.core c
  let s := s.emit true (.core c)
    { code := t.cause.code, fatal := true, nested := nested, shadow := shadow, tag := k.ctag.toNat,
      detail := t.detail.toNat, addr := t.addr.toNat }
  if k.share.isSome then s.endShare c 3
  else
    let s := s.stopCore c
    match k.rid with
    | none => s
    | some r => s.failLaunch r

/-- Word w of the trap frame (18 R345). -/
def Core.tf (k : Core) (w : Nat) : Nat := k.spill.nat (0x6000 + 8 * w) 8
/-- Write word w of the trap frame. -/
def Core.setTf (k : Core) (w v : Nat) : Core := { k with spill := k.spill.setNat (0x6000 + 8 * w) 8 v }

/-- Words of the frame that TFST leaves unchanged (18 R345, R352). -/
def tfReserved (w : Nat) : Bool := (decide (13 ≤ w) && decide (w ≤ 16)) || (decide (117 ≤ w) && decide (w ≤ 255))

/-- Position-kind codes (18 R345). -/
def PosKind.code : PosKind → Nat
  | .next => 0 | .pend => 1 | .wait => 2 | .again => 3

/-- What a freeze records (18 R345). -/
structure FreezeInfo where
  t : TrapInfo
  pk : PosKind
  fatal : Bool
  pslot : Nat := 0
  shadow : Bool := false
  pos : Nat
  store : Option Req := none
  held : Option PCause := none
  deriving DecidableEq, Repr

/-- Word 0 of the frame (18 R345). -/
def FreezeInfo.word0 (i : FreezeInfo) : Nat :=
  i.t.cause.code + 2 ^ 8 * i.pk.code + 2 ^ 10 * nb i.fatal + 2 ^ 11 * i.pslot + 2 ^ 16 * nb i.shadow

/-- Width code of a store (18 R345 word 12). -/
def widthCode (n : Nat) : Nat := if n = 1 then 0 else if n = 2 then 1 else if n = 4 then 2 else if n = 8 then 3 else 4
/-- Bytes of a width code; none for a reserved one. -/
def codeWidth : Nat → Option Nat
  | 0 => some 1 | 1 => some 2 | 2 => some 4 | 3 => some 8 | 4 => some 128
  | _ => none

/-- Bits of a list of Booleans, first lowest. -/
def maskOf : List Bool → Nat
  | [] => 0
  | b :: bs => nb b + 2 * maskOf bs

/-- Live masks of S, and of P and F (18 R345 words 8, 9). -/
def Core.liveS (k : Core) : Nat := maskOf ((upFrom 0 64).map (fun n => !k.dead.contains (codeS n)))
/-- See `Core.liveS`. -/
def Core.livePF (k : Core) : Nat :=
  maskOf ((upFrom 0 16).map (fun n => !k.dead.contains (codeP n))) +
  2 ^ 16 * maskOf ((upFrom 0 8).map (fun n => !k.dead.contains (codeF n)))

/-- KIND and NUM of a destination (18 R346). -/
def Dest.kindNum : Dest → Nat × Nat
  | .s n => (0, n.toNat) | .v n => (1, n.toNat) | .p n => (2, n.toNat) | .f n => (3, n.toNat) | .none => (4, 0)

/-- Tag word of a held result with remaining latency rem (18 R346). -/
def Pend.tagWord (p : Pend) (rem : Nat) : Nat :=
  let (flt, code, rs) := match p.st with
    | .fault t => (true, t.cause.code, if t.cause = .pagef then t.detail.toNat else 0)
    | .page _ => (true, Cause.pagef.code, PReason.notpresent.code)
    | .poison _ => (true, Cause.poison.code, 0)
    | _ => (false, 0, 0)
  rem % 64 + 2 ^ 6 * p.dest.kindNum.1 + 2 ^ 9 * p.dest.kindNum.2 + 2 ^ 20 * nb p.latch.isSome
    + 2 ^ 21 * (p.latch.getD 0).toNat + 2 ^ 24 * p.efl.toNat + 2 ^ 30 * nb flt + 2 ^ 32 * code + 2 ^ 40 * (rs % 256)

/-- Data words of a held result (18 R346). -/
def Pend.dataWords (p : Pend) : List Nat :=
  match p.st with
  | .fault t => [t.detail.toNat, t.addr.toNat]
  | .page _ => [PReason.notpresent.code, p.va.toNat]
  | .poison pa => [0, pa]
  | _ => (upFrom 0 16).map (fun i => (p.val.extractLsb' (64 * i) 64).toNat)

/-- Insert by remaining latency, after equals. -/
def insByRem (x : Nat × Pend) : List (Nat × Pend) → List (Nat × Pend)
  | [] => [x]
  | y :: ys => if x.1 < y.1 then x :: y :: ys else y :: insByRem x ys

/-- Held results in order of remaining latency, and in issue order within one (18 R346). -/
def sortRem (l : List (Nat × Pend)) : List (Nat × Pend) := l.foldl (fun acc x => insByRem x acc) []

/-- The matrix operation that occupies the engine in issue cycle c (07 R139). -/
def Core.mxBusy (k : Core) (c : Nat) : Option MxOp := k.mx.find? (fun m => decide (c < m.iss + 8 * m.steps))

/-- DONE, STEPS and BUSY in the form of ASTAT's fields (10 R235, 18 R345 word 7). -/
def Core.mxState (k : Core) (c : Nat) : Nat × Nat × Bool :=
  match k.mxBusy c with
  | some m => ((c - m.iss) / 8, m.steps, true)
  | none => (0, 0, false)

/-- The same at a freeze: the K-step in progress is finished first (10 R227). -/
def Core.mxFrozen (k : Core) (c : Nat) : Nat × Nat × Bool :=
  match k.mxBusy c with
  | some m => ((c - m.iss + 7) / 8, m.steps, true)
  | none => (0, 0, false)

/-- The sequencer goes on (10 R227). -/
def Core.unsettle (k : Core) : Core :=
  match k.mxBase with
  | some (b, m) => { k with banks := b, mx := m, mxBase := none }
  | none => k

/-- Write a list of words from word w on. -/
def Core.setTfs (k : Core) : Nat → List Nat → Core
  | _, [] => k
  | w, v :: vs => (k.setTf w v).setTfs (w + 1) vs

/-- Results of the return queue with a recorded fault (18 R345 words 9 and 11). -/
def rqFaulted (l : List Pend) : List Pend :=
  l.filter (fun p => match p.st with | .fault _ | .page _ | .poison _ => true | _ => false)

/-- RQF and RQADDR of a frame that stands follow the return queue, which takes faults while the monitor runs (18 R345, R373). -/
def Core.syncRq (k : Core) : Core :=
  match k.mon with
  | none => k
  | some m =>
    let l := rqFaulted m.rq
    let w9 := k.tf 9
    (k.setTf 9 (w9 % 2 ^ 48 + 2 ^ 48 * l.length + w9 / 2 ^ 56 * 2 ^ 56)).setTf 11 ((l.head?.map (fun p => p.va.toNat)).getD 0)

/-- The record that goes with a broken promise of a gather; zero with any other cause (12 R261, 18 R345, log 108). -/
def Core.gatherRec (k : Core) (t : TrapInfo) : Nat :=
  if t.cause = .promise ∧ t.detail.toNat / 2 ^ 24 = 0x13 then ((look k.gfr (t.detail.toNat % 4096)).getD 0).toNat else 0

/-- Write the trap frame (18 R345): reserved words and fields zero, words 954 on untouched. -/
def Core.writeFrame (k : Core) (tc : Nat) (i : FreezeInfo) : Core :=
  let rem (p : Pend) : Nat := p.due + 1 - k.ic
  let snaps := sortRem ((k.pend.filter (fun p => !p.rq)).map (fun p => (rem p, p)))
  let rqs := k.pend.filter (fun p => p.rq)
  let faulted := rqFaulted rqs
  let mxs := k.mxFrozen k.ic
  let pst := match i.store with
    | some r => widthCode r.size + 2 ^ 32 * r.pos
    | none => 0
  let k0 := { k with spill := k.spill.filter (fun e => decide (e.1 < 0x6000) || decide (0x6000 + 8 * 954 ≤ e.1)) }
  let k1 := k0.setTfs 0 [i.word0, i.t.detail.toNat, i.pos, i.t.addr.toNat, 0, k.sysMode.toNat, k.flags.toNat,
    mxs.1 + 2 ^ 8 * mxs.2.1 + 2 ^ 16 * nb mxs.2.2, k.liveS,
    k.livePF + 2 ^ 32 * snaps.length + 2 ^ 40 * rqs.length + 2 ^ 48 * faulted.length, tc,
    ((faulted.head?.map (fun p => p.va.toNat)).getD 0), pst]
  let k2 := k1.setTfs 16 ((upFrom 0 64).map (fun n => (k.sreg n).toNat))
  let k3 := k2.setTfs 80 ((upFrom 0 16).map (fun n => (k.preg n).toNat))
  let k4 := k3.setTf 96 (maskOf ((upFrom 0 8).map k.freg))
  let k5 := k4.setTfs 97 (k.loops.flatMap (fun l => [l.ix.toNat + 2 ^ 32 * l.count.toNat, l.start + 2 ^ 32 * l.end_]))
  let k6 := k5.setTfs 109 k.ras
  let k7 := (snaps.zipIdx).foldl (fun k e => k.setTfs (256 + 17 * e.2) (e.1.2.tagWord e.1.1 :: e.1.2.dataWords)) k6
  let k8 := match i.store with
    | some r => k7.setTfs 936 ((upFrom 0 16).map (fun j => (r.data.extractLsb' (64 * j) 64).toNat))
    | none => k7
  let gf := k.gatherRec i.t
  let k9 := k8.setTfs 952 [gf % 2 ^ 64, gf / 2 ^ 64]
  { k9 with
    cause := BitVec.ofNat 64 i.word0
    tfbase := BitVec.ofNat 64 (0x6000 + 2 ^ 16 * snaps.length + 2 ^ 24 * rqs.length) }

/-- A monitor freeze at a boundary (18 R341, R349): the frame is written, SYS.CAUSE set, and the monitor of the die starts at
its image's ENTRY with every register live, no result pending, empty stacks. With no monitor the context ends fatally
(18 R348); in the monitor it ends fatally and nested (18 R350); a share has no monitor (22 R417). -/
def State.freeze (s : State) (c : Nat) (i : FreezeInfo) : State :=
  let k := s.core c
  if k.mon.isSome then s.endFatal c i.t true i.shadow
  else if isNmv c then s.endFatal c i.t false i.shadow
  else match (s.die (coreDie c)).monitor with
    | none => s.endFatal c i.t false i.shadow
    | some img =>
      let k1 := k.writeFrame s.tc i
      (s.setCore c { k1 with
        mon := some ⟨k.ic, k.pend.filter (fun p => p.rq), match i.t.cause, i.pk with
          | .cellfull, .next | .cellfull, .wait => i.store
          | _, _ => none, img, k1.op, k1.await, k1.release,
          match k1.phase with | .drain d => .drain d | .table => .table | .idle => .idle | _ => .run, k1.pos, k1.lastPos, !k1.loopDue, k1.causes,
          (i.store.map (fun r => r.pend)).getD 0, (i.store.map (fun r => r.iss)).getD k.ic, k.bad, i.held, k1.pairBad⟩
        dead := k1.dead.filter (fun x => x / 0x1000 == 1)
        phase := .run
        pos := ((look s.codes img).map (fun x => x.entry)).getD 0
        ic := 0, pend := [], loops := [], ras := [], bound := [], br := .none, cbuf := [], op := none
        await := [], release := 0, loopDue := false, stall := .none, causes := [], waitCame := false, pairBad := none }).mirrorNow c

/-- Taking a precise trap of the bundle about to complete its issue (18 R341): AGAIN and fatal, at the position of the
bundle; BADTGT of a fetch is NEXT at the failed position. Every precise trap of an instruction goes through here. -/
def takeTrap (s : State) (t : TrapInfo) (store : Option Req) : State :=
  s.freeze s.cur { t := t, pk := if t.cause = .badtgt then .next else .again, fatal := true, pos := s.me.pos, store := store }

/-- Reserved fields of the frame that must be zero (18 R345, R353). -/
def Core.frameReservedOk (k : Core) : Bool :=
  let z (w lo n : Nat) : Bool := fld (k.tf w) lo n == 0
  z 0 14 2 && z 0 17 47 && z 1 32 32 && z 2 20 44 && z 4 2 62 && z 5 15 49 && z 6 6 58 && z 7 17 47
    && z 9 24 8 && z 9 56 8 && z 12 3 29 && z 12 52 12 && z 13 0 64 && z 14 0 64 && z 15 0 64
    && (upFrom 80 16).all (fun w => z w 32 32) && z 96 8 56
    && (upFrom 0 6).all (fun i => z (98 + 2 * i) 20 12 && z (98 + 2 * i) 52 12)
    && (upFrom 109 8).all (fun w => z w 20 44) && (upFrom 117 139).all (fun w => z w 0 64)

/-- NUM is in range for KIND (18 R346, R353). -/
def snapNumOk (kind num : Nat) : Bool :=
  match kind with
  | 0 => decide (num < 64)
  | 1 => decide (num < 2048)
  | 2 => decide (num < 16)
  | 3 => decide (num < 8)
  | 4 => true
  | _ => false

/-- A snapshot entry in use is valid (18 R353). -/
def snapOk (tag : Nat) : Bool :=
  decide (1 ≤ fld tag 0 6) && decide (fld tag 0 6 ≤ 40) && snapNumOk (fld tag 6 3) (fld tag 9 11)
    && fld tag 31 1 == 0 && fld tag 48 16 == 0

/-- The bundle at a position of a code (06 R104): none for a bad index. -/
def Code.bundleAt (x : Code) (h : Nat) : Option BundleBits :=
  let i := ((x.hw[h]?).getD 0).toNat
  if i = 0xFFFF then
    some (BitVec.ofNat 384 (((x.hw.drop (h + 1)).take 24).foldl (fun n (y : Half) => n * 65536 + y.toNat) 0))
  else x.pats[i]?

/-- Position after the bundle that starts at e (08 R158). -/
def Code.nextPos (x : Code) (e : Nat) : Nat := if (x.hw[e]?).getD 0 = 0xFFFF then e + 25 else e + 1

/-- The wait of a bundle's branch slot (18 R353, 08 R161): operands are read afresh. -/
def waitOf (k : Core) : Instr → Option Wait
  | .waitt r => some (.tc (k.sreg r.toNat))
  | .waiteImm m => some (.ev m)
  | .waiteReg r => some (.ev ((k.sreg r.toNat).setWidth 16))
  | .waitc fd r => some (.ctr (k.sreg r.toNat) none fd)
  | _ => none

/-- The wait of the bundle at a position, where it holds one. -/
def waitAt (x : Code) (k : Core) (h : Nat) : Option Wait :=
  match x.bundleAt h with
  | none => none
  | some b => if present b 0 then (decSlot b 0).bind (waitOf k) else none

/-- FrameValid (18 R353). -/
def Core.frameValid (k : Core) (x : Code) : Bool :=
  let pk := fld (k.tf 0) 8 2
  let pos := k.tf 2
  let ld := fld (k.tf 5) 8 3
  let snap := fld (k.tf 9) 32 8
  k.frameReservedOk && pk != 3 && x.starts.contains pos && decide (pos < x.hw.length)
    && (pk != 2 || (waitAt x k pos).isSome) && (pk != 1 || (codeWidth (fld (k.tf 12) 0 3)).isSome)
    && decide (k.ldecl ≤ ld) && decide (ld ≤ 6) && decide (fld (k.tf 5) 11 4 ≤ 8) && decide (snap ≤ 40)
    && (upFrom 0 snap).all (fun e => snapOk (k.tf (256 + 17 * e)))

/-- The destination a KIND and NUM name. -/
def destOf (kind num : Nat) : Dest :=
  match kind with
  | 0 => destS (BitVec.ofNat 6 num) false
  | 1 => .v (BitVec.ofNat 11 num)
  | 2 => destP (BitVec.ofNat 4 num) false
  | 3 => destF (BitVec.ofNat 3 num) false
  | _ => .none

/-- A held result as snapshot entry e of the frame gives it, landing by R343 from issue cycle ic on (18 R346). An FCODE that is none of 06 R127's
table stands for ILLOP (log 120). -/
def Core.snapEntry (k : Core) (ic e : Nat) : Pend :=
  let tag := k.tf (256 + 17 * e)
  let d (i : Nat) : Nat := k.tf (257 + 17 * e + i)
  let flt := bit tag 30
  { due := ic + fld tag 0 6 - 1
    iss := ic - 1
    seq := k.seq + e
    dest := destOf (fld tag 6 3) (fld tag 9 11)
    val := if flt then 0 else BitVec.ofNat 1024 ((upFrom 0 16).foldr (fun i n => d i + 2 ^ 64 * n) 0)
    latch := if bit tag 20 then some (BitVec.ofNat 3 (fld tag 21 3)) else none
    efl := BitVec.ofNat 6 (fld tag 24 6)
    rq := false
    st := if flt then (if fld tag 32 8 = Cause.poison.code then .poison (d 1)
            else .fault ⟨(Cause.ofCode (fld tag 32 8)).getD .illop, BitVec.ofNat 32 (d 0), BitVec.ofNat 64 (d 1)⟩)
          else .ready
    va := 0 }

/-- Dead marks that words 8 and 9 give. -/
def Core.frameDead (k : Core) : List Nat :=
  ((upFrom 1 63).filter (fun n => !bit (k.tf 8) n)).map codeS ++
  ((upFrom 1 15).filter (fun n => !bit (k.tf 9) n)).map codeP ++
  ((upFrom 1 7).filter (fun n => !bit (k.tf 9) (16 + n))).map codeF

/-- The context state that RETT restores from the frame (18 R353): S, P, F and their live marks, the two stacks, FLAGS, the held
results. V registers, banks and latches were not changed by the freeze. -/
def Core.restore (k : Core) (m : Mon) : Core :=
  { k with
    s := (upFrom 1 63).foldl (fun t n => put t n (BitVec.ofNat 64 (k.tf (16 + n)))) k.s
    p := (upFrom 1 15).foldl (fun t n => put t n (BitVec.ofNat 32 (k.tf (80 + n)))) k.p
    f := (upFrom 1 7).foldl (fun t n => put t n (bit (k.tf 96) n)) k.f
    dead := k.dead.filter (fun x => x / 0x1000 == 1) ++ k.frameDead
    loops := (upFrom 0 (fld (k.tf 5) 8 3)).map (fun i =>
      ⟨BitVec.ofNat 32 (k.tf (97 + 2 * i)), BitVec.ofNat 32 (k.tf (97 + 2 * i) / 2 ^ 32),
       fld (k.tf (98 + 2 * i)) 0 20, fld (k.tf (98 + 2 * i)) 32 20⟩)
    ras := (upFrom 0 (fld (k.tf 5) 11 4)).map (fun i => fld (k.tf (109 + i)) 0 20)
    flags := BitVec.ofNat 6 (k.tf 6)
    ic := m.kic
    pend := m.rq ++ (upFrom 0 (fld (k.tf 9) 32 8)).map (k.snapEntry m.kic)
    seq := k.seq + fld (k.tf 9) 32 8
    mon := none
    op := m.op
    await := m.await
    release := m.release
    causes := m.causes ++ k.causes
    bad := k.bad.filter (fun x => x / 0x1000 == 1 || decide (4 ≤ x / 0x1000)) ++ m.marks.filter (fun x => x / 0x1000 != 1 && decide (x / 0x1000 < 4))
    pairBad := if k.pairBad.isSome then some m.kic else m.bad
    lastPos := m.last
    cbuf := []
    bound := []
    br := .none }

/-- The store that ADDR, PSTORE and PSDATA describe (18 R353), in the place among the core's accesses of the one the freeze recorded, which
issued in cycle iss. -/
def Core.frameStore (k : Core) (s : State) (c : Nat) (strong : Bool) (pseq iss : Nat) : Req :=
  let va : Word := BitVec.ofNat 64 (k.tf 3)
  let (t, z) := s.resolve k va.toNat
  { k := .store strong, core := c, rid := k.rid, lidx := k.lidx, tag := t, owner := k.ctag.toNat, zero := z, va := va, pa := 0,
    size := (codeWidth (fld (k.tf 12) 0 3)).getD 8,
    data := BitVec.ofNat 1024 ((upFrom 0 16).foldr (fun i n => k.tf (936 + i) + 2 ^ 64 * n) 0),
    pend := pseq, pos := fld (k.tf 12) 32 20, iss := iss, gen := (s.tag k.ctag.toNat).gen, tc := s.tc, done := false }

/-- The slot that is still to be performed (18 R353 PEND): a store or an atomic takes the frame's address, width and data; the wait of a
PHASE or FENCE goes on, with the store whose fault held it up put back at the head of the buffer; any other slot is performed as it
stands. -/
def Core.resumePend (k : Core) (s : State) (c : Nat) (x : Code) (pos slot pseq iss : Nat) : Core :=
  match (x.bundleAt pos).bind (fun b => decSlot b slot) with
  | some (.phase sc) => { k with op := some (.phase sc), sbuf := .req (k.frameStore s c false pseq iss) :: k.sbuf, release := k.release + 1 }
  | some (.fence a b) => { k with op := some (.fence a b), sbuf := .req (k.frameStore s c false pseq iss) :: k.sbuf, release := k.release + 1 }
  | some (.atadd o) => { k with op := some (.access (atomicReq .add o) false) }
  | some (.atmin o) => { k with op := some (.access (atomicReq .min o) false) }
  | some (.atmax o) => { k with op := some (.access (atomicReq .max o) false) }
  | some (.atcas o) => { k with op := some (.access (atomicReq .cas o) false) }
  | some (.atswp o) => { k with op := some (.access (atomicReq .swp o) false) }
  | some (.gst o) =>
    if o.strong then { k with op := some (.access (k.frameStore s c true pseq iss) false) }
    else { k with sbuf := k.sbuf ++ [.req (k.frameStore s c false pseq iss)] }
  | some (.st o) => scratch o.strong
  | some (.vst o) => scratch o.strong
  | some (.vsts o) => scratch o.strong
  | some i => { k with op := some (.slot i) }
  | none => k
where
  /-- A store to scratch at the frame's address. -/
  scratch (strong : Bool) : Core :=
    let r := k.frameStore s c strong pseq iss
    let e : SbEnt := .scratch r.va.toNat (((toBytes r.size r.data.toNat).zipIdx r.va.toNat).map (fun b => (b.2, b.1)))
      (if r.size = 128 then some r.data else none) s.tc
    { k with sbuf := k.sbuf ++ [e], release := if strong then k.sbuf.length + 1 else k.release }
  /-- The atomic of a slot with the frame's address, width and data. -/
  atomicReq (kind : AtKind) (o : AtOp) : Req :=
    let r := k.frameStore s c true pseq iss
    { r with k := .atomic kind (r.size == 8) o.sgn (r.data.setWidth 64) (k.sreg o.sc.toNat) }

/-- RETT (18 R353) of core c, after the frame's checks: restore, post the record that ACTION asks for, resume by POSKIND. A CODE that is none of
06 R127's table goes into that record as it stands, and ILLOP into a fatal one (log 120). -/
def State.rett (s : State) (c : Nat) : State :=
  let k := s.core c
  match k.mon, look s.codes k.code with
  | some m, some x =>
    if !k.frameValid x then s.endFatal c ⟨.illop, 0x0D, 0⟩ true false
    else
      let code := (Cause.ofCode (fld (k.tf 0) 0 8)).getD .illop
      let t : TrapInfo := ⟨code, BitVec.ofNat 32 (k.tf 1), BitVec.ofNat 64 (k.tf 3)⟩
      if bit (k.tf 0) 10 then s.endFatal c t false (bit (k.tf 0) 16)
      else
        let s := if bit (k.tf 4) 0 then s.emit false (.core c)
          { code := fld (k.tf 0) 0 8, shadow := bit (k.tf 0) 16, tag := k.ctag.toNat, detail := k.tf 1, addr := k.tf 3 } else s
        let yield := bit (k.tf 4) 1
        let pos := k.tf 2
        let k1 := (k.restore m).unsettle
        let k2 := match fld (k.tf 0) 8 2 with
          | 0 => { k1 with pos := pos, phase := m.back, loopDue := !m.tested && pos == m.next }
          | 2 => { k1 with lastPos := pos, pos := x.nextPos pos, phase := .sleep ((waitAt x k1 pos).getD (.tc 0)), loopDue := true }
          | _ =>
            let k2 := { (k1.resumePend s c x pos (fld (k.tf 0) 11 3) m.pseq m.siss) with phase := m.back }
            if m.tested ∧ pos = m.last then { k2 with pos := m.next, loopDue := false }
            else { k2 with lastPos := pos, pos := x.nextPos pos, loopDue := m.back == Phase.run }
        let k3 := match m.store with
          | some q => { k2 with sbuf := .req (k1.frameStore s c false q.pend q.iss) :: k2.sbuf, release := k2.release + 1 }
          | none => k2
        (s.setCore c { k3 with out := if yield then .requested s.tc else k3.out }).mirrorNow c
  | _, _ => s.endFatal c ⟨.illop, 0x0D, 0⟩ true false

/-- HALT in the monitor (18 R354): the context ends fatally with the frame's cause, after the record that ACTION asks for; a CODE that is none of
06 R127's table stands for ILLOP in the fatal record (log 120). -/
def State.halt (s : State) (c : Nat) : State :=
  let k := s.core c
  let s := if bit (k.tf 4) 0 then s.emit false (.core c)
    { code := fld (k.tf 0) 0 8, shadow := bit (k.tf 0) 16, tag := k.ctag.toNat, detail := k.tf 1, addr := k.tf 3 } else s
  s.endFatal c ⟨(Cause.ofCode (fld (k.tf 0) 0 8)).getD .illop, BitVec.ofNat 32 (k.tf 1), BitVec.ofNat 64 (k.tf 3)⟩
    false (bit (k.tf 0) 16)

/-- The shadow takes the state of a stitch point (20 R382), with the position to go back to. -/
def Core.stitch (k : Core) : Core :=
  { k with
    shadow := { s := k.s, v := k.v, p := k.p, f := k.f, dead := k.dead, loops := k.loops, ras := k.ras, flags := k.flags,
                seed0 := k.seed0, seed1 := k.seed1, mask := k.mask, alloc := k.alloc, pos := k.pos, ic := k.ic,
                banks := [], spill := [], bad := k.bad.filter (fun x => decide (x < 0x4000)), badSpill := [] }
    rewound := false, window := false, evCleared := 0 }

/-- Before the first write of a bank since the stitch point, its elements go to the bank shadow (20 R382), with its mark. -/
def Core.shadowBank (k : Core) (b : Nat) : Core :=
  if (look k.shadow.banks b).isSome then k
  else { k with shadow := { k.shadow with
    banks := put k.shadow.banks b (k.bank b), bad := if k.bad.contains (codeB b) then addNew k.shadow.bad (codeB b) else k.shadow.bad } }

/-- Before the first write of a spill unit of 0x0000 to 0x5FFF, its bytes go to the spill shadow (20 R382), with its
mark. -/
def Core.shadowSpill (k : Core) (u : Nat) : Core :=
  if decide (48 * 4 ≤ u) || (look k.shadow.spill u).isSome then k
  else { k with shadow := { k.shadow with
    spill := put k.shadow.spill u (k.spill.bytes (128 * u) 128), badSpill := if k.badSpill.contains u then addNew k.shadow.badSpill u else k.shadow.badSpill } }

/-- Write spill memory, shadowing first (20 R382); a unit wholly written loses its poison. -/
def Core.spillWrite (k : Core) (off : Nat) (bs : List Byte) : Core :=
  let k := (touchedUnits off bs.length).foldl Core.shadowSpill k
  { k with spill := k.spill.setBytes off bs
           badSpill := k.badSpill.filter (fun u => !(fullUnits off bs.length).contains u) }

/-- Causes that a rewind keeps: ranks 6, 7 and 10, that of a freeze abandoned first, and faults of stores issued before the stitch point (18 R359, 13 R265). -/
def Core.keptCauses (k : Core) : List PCause :=
  (match k.mon with | some m => m.held.toList | none => []) ++
  ((match k.mon with | some m => m.causes | none => []) ++ k.causes).filter (fun c => match c with
    | .promise _ _ | .overarr _ | .intr _ | .nf _ => true
    | .weak _ r => decide (r.iss < k.shadow.ic)
    | _ => false)

/-- The state of the last stitch point again (20 R384 steps 1 to 5): results, requests of the segment and matrix operations
dropped, buffer discarded but for the entries already released, latches stale, event bits that a WAITE cleared set again. A value that
failed its check keeps its mark in the shadow, and on the banks and spill units that no shadow restores (20 R379). -/
def Core.rewindTo (k : Core) : Core :=
  let sh := k.shadow
  let out := match k.mon with | some m => m.release | none => k.release
  { k with
    pend := [], bpend := [], mx := [], mxBase := none, bound := [], br := .none, op := none, await := [], stitchOp := none
    sbuf := k.sbuf.take out
    release := out
    causes := k.keptCauses
    ic := match k.mon with | some m => m.kic | none => k.ic
    mon := none
    s := sh.s, v := sh.v, p := sh.p, f := sh.f, dead := sh.dead, loops := sh.loops, ras := sh.ras, flags := sh.flags
    seed0 := sh.seed0, seed1 := sh.seed1, mask := sh.mask, alloc := sh.alloc
    banks := sh.banks.foldl (fun t e => put t e.1 e.2) k.banks
    spill := sh.spill.foldl (fun m e => m.setBytes (128 * e.1) e.2) k.spill
    shadow := { sh with banks := [], spill := [], bad := sh.bad.filter (fun x => decide (x < 0x4000)), badSpill := [] }
    ev := k.ev ||| k.evCleared
    evCleared := 0
    stale := [0, 1, 2, 3, 4, 5, 6, 7]
    bad := k.bad.filter (fun x => x / 0x1000 == 4 && (look sh.banks (x % 0x1000)).isNone) ++ sh.bad
    badSpill := k.badSpill.filter (fun u => (look sh.spill u).isNone) ++ sh.badSpill
    cbuf := []
    rewound := true, seamRew := true, seamWait := false, after := false, exiting := false, loopDue := false, stall := .none
    waitCame := false, pairBad := none
    phase := if k.running.isNone && k.share.isNone then .table else .run
    pos := sh.pos }

/-- Escalation (20 R385): an ESCALATE record on Lane H, then the tag is killed, or under tag 0 the context ends fatally. -/
def State.escalate (s : State) (c : Nat) (cause : Cause) (pa : Nat) : State :=
  let k := s.core c
  let s := s.emit true (.core c)
    { code := 0x42, tag := k.ctag.toNat, detail := k.shadow.pos + 2 ^ 20 * nb k.window }
  if k.ctag = 0 then s.endFatal c ⟨cause, 0, BitVec.ofNat 64 pa⟩ false false
  else (s.stopCore c).owe (.tagKill k.ctag.toNat 10 c)

/-- Requests of cycles that have not matched never leave the pair (07 R152). -/
def State.dropUnmatched (s : State) (c : Nat) : State :=
  let k := s.core c
  if !k.paired then s
  else { s with reqs := s.reqs.filter (fun e => e.2.left || e.2.core != c || e.2.rid != k.rid)
                engs := s.engs.filter (fun e => !(e.2.core == c && s.unmatched c e.2.rid e.2.iss)) }

/-- A rewind (20 R384), of both cores of a pair: step 6's record on Lane N, or escalation where R385 says so. -/
def State.rewindCore (s0 : State) (c : Nat) (cause : Cause) (pa : Nat) : State :=
  let s := s0.dropUnmatched c
  let k := s.core c
  if k.rewound || k.window then s.escalate c cause pa
  else ((s.setCore c k.rewindTo).mirrorNow c).emit false (.core c)
    { code := cause.code, tag := k.ctag.toNat, detail := k.shadow.pos, addr := pa }

/-- The outcome of a slot instruction acting alone on the core whose bundle issues: its effect, the precise trap, the rewind;
a stall changes nothing (07 R133, R134). -/
def runSlot (e : Except Stop State) (s : State) : Host.Outcome State Fault Refusal :=
  match e with
  | .ok s' => .next s'
  | .error (.trap t) => .next (takeTrap s t none)
  | .error (.trapSt t r) => .next (takeTrap s t (some r))
  | .error (.rewind pa) => .next (s.rewindCore s.cur .poison pa)
  | .error (.stall _) => .next s
  | .error (.xlat e va) => .next (s.owe (.atsTranslationReply e va))

end Sys2Proof.Machine
end

