-- ==== Sys2Proof/Machine/Agenda.lean ====
section
/-! DEFINITION. Agenda.lean: which steps the agenda may hold, and how a program is placed for the next step (log 1, log 2). -/

namespace Sys2Proof.Machine

/-- An engine that exists. -/
def engineOk : Engine → Bool
  | .core c => decide (c < 2560)
  | .copy k => decide (k < 512)
  | .rbd k => decide (k < 32)

/-- A place where an error may be found that exists. -/
def siteOk : ErrSite → Bool
  | .dram pa | .dirty pa => decide (pa < 2 ^ 42)
  | .slice cl a => decide (cl < 512) && decide (a < scratchSize)
  | .sreg c n => decide (c < 2560) && decide (n < 64)
  | .vreg c n => decide (c < 2560) && decide (n < 2048)
  | .preg c n => decide (c < 2560) && decide (n < 16)
  | .freg c n | .latch c n => decide (c < 2560) && decide (n < 8)
  | .bank c n => decide (c < 2048) && decide (n < 128)
  | .retq c _ | .snapshot c _ | .withheld c _ | .shadow c | .codeLine c _ => decide (c < 2560)
  | .spill c off => decide (c < 2560) && decide (off < 32768)
  | .localStore c off => decide (c < 2560) && isNmv c && decide (off < 0x40000)
  | .cellDir k tag g => decide (k < 32) && decide (tag < 4095) && decide (g < 2 ^ 27)
  | .reqEntry _ tag _ => decide (tag < 4095)
  | .dieCtl d => decide (d < 68)
  | .rbdCtl k => decide (k < 32)
  | .copyOfCleanLine d _ => decide (d < 64)
  | .hxd _ => true

/-- An asker from outside that exists: a PCI Express port, or the host (25 R444). -/
def outsiderOk : Outsider → Bool
  | .host | .connector => true
  | .device port => decide (port < 8)

/-- The physical place that a step names exists: core, die, cluster, stack, tag, window, port (01 R11 to R15, 03 R39). -/
def placeOk : Instr → Bool
  | .codeBufferFill c _ | .stitchPoint c | .weakStoreFault c _ | .taskExitComplete c | .taskStart c | .waittWake c | .phaseComplete c
  | .fenceComplete c | .sliceSwitchPoint c | .overarrNotice c _ | .eventArrival c _ | .cancelTimeout c | .dynRangeRequest c
  | .tagnewAnswer c _ | .nfNotice c _ | .switchOut c | .saveTimeout c | .hangTimeout c | .monitorFreeze c | .rewind c _ =>
    decide (c < 2560)
  | .atsTranslationReply e _ => engineOk e
  | .lpSubmit d _ | .lpCancel d _ | .lpMonimg d _ => decide (d < 64)
  | .tagKill t _ _ => decide (t < 4095)
  | .tagDrain t k => decide (t < 4095) && decide (k < 32)
  | .tagFree t => decide (t < 4095)
  | .shareStart k | .copyOutComplete k _ | .rbDead k _ | .rbBkrel k _ | .rbdWarm k _ | .rbdNormal k _ | .rbdDraining k _
  | .rbdSelfref k | .rbdSelfrefExit k _ | .rbdReset k _ | .rbdResetResume k => decide (k < 32)
  | .refresh k ch b r | .activationAlert k ch b r => decide (k < 32) && decide (ch < 512) && decide (b < 48) && decide (r < 4096)
  | .alertBankReopen k ch b => decide (k < 32) && decide (ch < 512) && decide (b < 48)
  | .clusterSave _ cl => decide (cl < 512)
  | .fwEnable n _ | .fwDisable n _ | .sptEnable n _ | .sptDisable n _ | .salderPortEnable n | .salderPortDisable n
  | .salderPortForget n | .portTrained n _ _ | .portDown n | .flitReplay n => decide (n < 64)
  | .lineRecall _ d => decide (d < 64)
  | .globalReadRequest (.outside who _ _) | .globalWriteRequest (.outside who _ _) => outsiderOk who
  | .correctedError (.die d) => decide (d < 68)
  | .correctedError (.rbd k) => decide (k < 32)
  | .ctFenceFence d | .ctFenceClearHold d | .dieFence d _ | .heartbeat d | .heartbeatMiss d | .dieQuiesced d
  | .dieSalvaged d _ | .dieReadmit d _ => decide (d < 68)
  | .uncorrectableError x => siteOk x
  | .permitAudit l => l.all (fun x => decide (x.die < 68))
  | .sensorSample n _ _ => decide (n < 103)
  | .thermalTrip d => decide (d < 101)
  | _ => true

/-- The code copy of one bundle, whose branch slot alone is present and holds the word w (06 R106, R107). -/
def oneBundle (w : Nat) : Code where
  pats := [BitVec.ofNat 384 (2 ^ 375 + 2 ^ 336 * (w % 2 ^ 32))]
  hw := [0]
  starts := [0]
  restarts := []
  entry := 0
  defprof := 1
  attr := 0
  nestlev := 0
  quota := 0
  seed0 := 0
  seed1 := 0
  stack := 0

/-- A core about to issue the bundle at halfword 0 of its code copy, with nothing in flight, nothing owed to a boundary, and that line in its
code buffer. -/
def Core.fetchReady (k : Core) (tc : Nat) : Core :=
  { k with phase := .run, pos := 0, loopDue := false, pend := [], bpend := [], mx := [], mxBase := none, sbuf := [], release := 0, op := none
           await := [], causes := [], mon := none, out := .no, cancelTc := none, stopNext := false, stitchOp := none
           bound := [], br := .none, after := false, window := false, cbuf := [0], lastIssue := tc, stall := .none
           exiting := false, waitCame := false, pairBad := none, tfail := [] }

/-- The core whose turn it is holds a program of one bundle, and nothing else is due before it (log 2). -/
def State.placeWord (s : State) (w : Nat) : State :=
  let c := s.cur
  let k := (s.core c).fetchReady s.tc
  { (s.setCore c k).mirrorNow c with codes := put s.codes k.code (oneBundle w), active := [c], agenda := [], inflight := [], turn := false }

end Sys2Proof.Machine
end

