-- ==== Sys2Proof/Machine/Branch.lean ====
section
/-! DEFINITION. Branch.lean: the branch slot (08 R155 to R166, 18 R351 to R354). Each instruction checks at issue and says in
`Core.br` what the bundle does at its end, after its other slots have issued (07 R142, 08 R157). -/

namespace Sys2Proof.Machine

/-- What the branch slot will do at the end of its bundle. -/
def State.setBr (s : State) (b : BrAct) : State := s.upMe (fun k => { k with br := b })

/-- A branch that is taken when the condition differs from NEG (08 R156, R157). -/
def branchIf (s : State) (c neg : Bool) (t : Nat) : State := if c != neg then s.setBr (.jump t) else s

/-- J (08 R157). -/
def effJ (t : BitVec 20) (s : State) : Except Stop State := .ok (s.setBr (.jump t.toNat))

/-- JF (08 R156, R157). -/
def effJf (neg : Bool) (f : BitVec 3) (t : BitVec 20) (s : State) : Except Stop State :=
  match s.rdF 1 f.toNat with
  | .error e => .error e
  | .ok c => .ok (branchIf s c neg t.toNat)

/-- JP: a predicate neither all-true nor all-false traps NONUNI with its bits (08 R156). -/
def effJp (neg : Bool) (p : BitVec 4) (t : BitVec 20) (s : State) : Except Stop State :=
  match s.rdP 1 p.toNat with
  | .error e => .error e
  | .ok v =>
    if v = 0xFFFF_FFFF then .ok (branchIf s true neg t.toNat)
    else if v = 0 then .ok (branchIf s false neg t.toNat)
    else trapD .nonuni v.toNat

/-- CALL: eight entries held trap CALLDEEP (07 R146, 06 R457). -/
def effCall (t : BitVec 20) (s : State) : Except Stop State :=
  if s.me.ras.length ≥ 8 then trapD .calldeep 8 else .ok (s.setBr (.call t.toNat))

/-- RET: an empty store traps RETEMPTY (07 R146). -/
def effRet (s : State) : Except Stop State :=
  if s.me.ras.isEmpty then trapD .retempty 0 else .ok (s.setBr .ret)

/-- LOOP with a count (07 R144, 08 R158): 0 pushes nothing and goes on after the body; a seventh entry traps LOOPDEEP. -/
def loopWith (e : Nat) (n : BitVec 32) (s : State) : Except Stop State :=
  let k := s.me
  if n = 0 then .ok (s.setBr (.loopSkip (k.pos + e)))
  else if k.loops.length ≥ 6 then trapD .loopdeep 6
  else .ok (s.setBr (.loop ⟨0, n, k.pos + k.len, k.pos + e⟩))

/-- LOOP with an immediate count. -/
def effLoopImm (e : BitVec 13) (n : BitVec 12) (s : State) : Except Stop State := loopWith e.toNat (n.setWidth 32) s

/-- LOOP with its count in bits [31:0] of S. -/
def effLoopReg (e : BitVec 13) (r : BitVec 6) (s : State) : Except Stop State :=
  match s.rdS 1 r.toNat with
  | .error e => .error e
  | .ok v => loopWith e.toNat (v.setWidth 32) s

/-- LEXIT (08 R159): with no hardware loop open a true condition traps ILLOP. -/
def effLexit (neg : Bool) (f : BitVec 3) (s : State) : Except Stop State :=
  match s.rdF 1 f.toNat with
  | .error e => .error e
  | .ok c =>
    if c != neg then
      if s.me.levels < s.me.loops.length then .ok (s.setBr .lexit) else illop 7
    else .ok s

/-- EXIT (08 R160): banks held trap ACCHOLD with their number. -/
def effExit (s : State) : Except Stop State :=
  if s.me.alloc.isEmpty then .ok (s.setBr .exit) else trapD .acchold s.me.alloc.length

/-- WAITT (08 R162). -/
def effWaitt (r : BitVec 6) (s : State) : Except Stop State :=
  match s.rdS 1 r.toNat with
  | .error e => .error e
  | .ok v => .ok (s.setBr (.wait (.tc v)))

/-- WAITE with its mask in the instruction (08 R163). -/
def effWaiteImm (m : BitVec 16) (s : State) : Except Stop State := .ok (s.setBr (.wait (.ev m)))

/-- WAITE with its mask in bits [15:0] of S. -/
def effWaiteReg (r : BitVec 6) (s : State) : Except Stop State :=
  match s.rdS 1 r.toNat with
  | .error e => .error e
  | .ok v => .ok (s.setBr (.wait (.ev (v.setWidth 16))))

/-- The address checks of an instruction that names a counter or JCB (16 R311): alignment, then the tagged windows. -/
def objectCheck (s : State) (a : Word) (align : Nat) : Rd Unit :=
  if a.toNat % align ≠ 0 then trapA .illop 0x700 a
  else if s.inTagged s.me a.toNat then trapA .illop 0x804 a
  else .ok ()

/-- WAITC (08 R164): its address is checked and translated at issue, as any core access is: a miss stalls, and so does a page request that finds
no room; one that is sent freezes the core at the boundary after the bundle (11 R249). -/
def effWaitc (fd : BitVec 3) (r : BitVec 6) (s : State) : Except Stop State :=
  match s.rdS 1 r.toNat with
  | .error e => .error e
  | .ok a =>
    match objectCheck s a 8 with
    | .error e => .error e
    | .ok _ =>
      match s.xlate (engOf s.cur) a.toNat 0 .read with
      | .miss => .error (.xlat (engOf s.cur) a.toNat)
      | .ok pa => .ok (s.setBr (.wait (.ctr a (some pa) fd)))
      | .fault rs => if rs.resolvable then .ok (s.setBr (.wait (.ctr a none fd))) else .error (.trap (pagef rs a))

/-- TRAP (08 R165); in the monitor it ends the context (18 R351). -/
def effTrap (code : BitVec 16) (s : State) : Except Stop State :=
  if s.me.mon.isSome then trapD .swtrap code.toNat else .ok (s.setBr (.trap code))

/-- RETT: in kernel code it traps ILLOP (18 R351). -/
def effRett (s : State) : Except Stop State := if s.me.mon.isSome then .ok (s.setBr .rett) else illop 0x0D

/-- HALT: in kernel code it traps ILLOP (08 R166). -/
def effHalt (s : State) : Except Stop State := if s.me.mon.isSome then .ok (s.setBr .halt) else illop 0x0E

/-- J, issued (08 R157). -/
def execJ (t : BitVec 20) (s : State) : Host.Outcome State Fault Refusal := runSlot (effJ t s) s
/-- JF, issued. -/
def execJf (neg : Bool) (f : BitVec 3) (t : BitVec 20) (s : State) : Host.Outcome State Fault Refusal := runSlot (effJf neg f t s) s
/-- JP, issued. -/
def execJp (neg : Bool) (p : BitVec 4) (t : BitVec 20) (s : State) : Host.Outcome State Fault Refusal := runSlot (effJp neg p t s) s
/-- CALL, issued. -/
def execCall (t : BitVec 20) (s : State) : Host.Outcome State Fault Refusal := runSlot (effCall t s) s
/-- RET, issued. -/
def execRet (s : State) : Host.Outcome State Fault Refusal := runSlot (effRet s) s
/-- LOOP with an immediate, issued. -/
def execLoopImm (e : BitVec 13) (n : BitVec 12) (s : State) : Host.Outcome State Fault Refusal := runSlot (effLoopImm e n s) s
/-- LOOP with a register, issued. -/
def execLoopReg (e : BitVec 13) (r : BitVec 6) (s : State) : Host.Outcome State Fault Refusal := runSlot (effLoopReg e r s) s
/-- LEXIT, issued. -/
def execLexit (neg : Bool) (f : BitVec 3) (s : State) : Host.Outcome State Fault Refusal := runSlot (effLexit neg f s) s
/-- EXIT, issued. -/
def execExit (s : State) : Host.Outcome State Fault Refusal := runSlot (effExit s) s
/-- WAITT, issued. -/
def execWaitt (r : BitVec 6) (s : State) : Host.Outcome State Fault Refusal := runSlot (effWaitt r s) s
/-- WAITE with an immediate, issued. -/
def execWaiteImm (m : BitVec 16) (s : State) : Host.Outcome State Fault Refusal := runSlot (effWaiteImm m s) s
/-- WAITE with a register, issued. -/
def execWaiteReg (r : BitVec 6) (s : State) : Host.Outcome State Fault Refusal := runSlot (effWaiteReg r s) s
/-- WAITC, issued. -/
def execWaitc (fd : BitVec 3) (r : BitVec 6) (s : State) : Host.Outcome State Fault Refusal := runSlot (effWaitc fd r s) s
/-- TRAP, issued. -/
def execTrap (code : BitVec 16) (s : State) : Host.Outcome State Fault Refusal := runSlot (effTrap code s) s
/-- RETT, issued. -/
def execRett (s : State) : Host.Outcome State Fault Refusal := runSlot (effRett s) s
/-- HALT, issued. -/
def execHalt (s : State) : Host.Outcome State Fault Refusal := runSlot (effHalt s) s

end Sys2Proof.Machine
end

