-- ==== Sys2Proof/Machine/Memory.lean ====
section
/-! DEFINITION. Memory.lean: the memory slot ME (13 R262 to R276, R286 to R288). A slot reads, checks, and queues: results
in `pend`, weak stores in `sbuf` (13 R264), strong ones and atomics in `op`, which the whole core waits for (13 R266, R273). -/

namespace Sys2Proof.Machine

/-- Most page requests of a die outstanding (11 R249). -/
def pageLimit : Nat := 512
/-- Most results in the return queue (18 R342). -/
def rqLimit : Nat := 40

/-- The place whose page requests are counted together: a compute die, or for an NMV core its stack's. -/
def pageHome (c : Nat) : Nat := if isNmv c then 64 + nmvStack c else coreDie c

/-- Page requests outstanding at a core's die (11 R249). -/
def State.pagesOut (s : State) (c : Nat) : Nat :=
  (s.reqs.filter (fun e => match e.2.k with | .page _ _ _ => pageHome e.2.core == pageHome c | _ => false)).length

/-- A request of the core whose bundle issues, with the tag and policy of R43 for its address. -/
def State.newReq (s : State) (k : ReqK) (va : Word) (pa size : Nat) (data : Vec) : Req :=
  let m := s.me
  { k := k, core := s.cur, rid := m.rid, lidx := m.lidx, tag := (s.resolve m va.toNat).1, owner := m.ctag.toNat,
    zero := (s.resolve m va.toNat).2, va := va, pa := pa, size := size, data := data, pend := m.seq, pos := m.pos,
    iss := m.ic, gen := (s.tag m.ctag.toNat).gen, tc := s.tc, done := true }

/-- A PRI page request for a context of a core (11 R249), under an owner tag and its GEN (18 R366); it carries the PASID of HX_PASID
(25 R439), here as its data. -/
def State.pageReq (s : State) (c : Nat) (rid : Option Nat) (owner : Nat) (e : Engine) (write : Bool) (why : PageFor) (va : Word) : Req :=
  let k := s.core c
  { k := .page write e why, core := c, rid := rid, lidx := k.lidx, tag := 0, owner := owner, zero := false, va := va, pa := 0, size := 0,
    data := BitVec.ofNat 1024 s.pasid, pend := 0, pos := k.pos, iss := k.ic, gen := (s.tag owner).gen, tc := s.tc, done := false }

/-- Send a page request of core c, for which the core waits (11 R249). -/
def State.sendPage (s : State) (c : Nat) (e : Engine) (write : Bool) (va : Word) : State :=
  let k := s.core c
  (s.addReq (s.pageReq c k.rid k.ctag.toNat e write .core va)).setCore c { k with await := k.await ++ [s.nextId] }

/-- ILLOP with detail 0x700 unless an address is a multiple of a size (13 R263). -/
def aligned (a : Word) (n : Nat) : Rd Unit := if a.toNat % n = 0 then .ok () else trapA .illop 0x700 a

/-- What a checked translation gives: an address, or a fault that a page request resolves. -/
inductive XAns where
  | pa (pa : Nat)
  | page
  deriving DecidableEq, Repr

/-- Translate at issue (11 R247 to R249): a miss stalls the core, a fault that no page request resolves traps, one that it
resolves needs room for the request. -/
def State.xlateAt (s : State) (va : Word) (tag : Nat) (a : Acc) (store : Option Req) : Rd XAns :=
  match s.xlate (engOf s.cur) va.toNat tag a with
  | .miss => .error (.xlat (engOf s.cur) va.toNat)
  | .ok pa => .ok (.pa pa)
  | .fault r =>
    if r.resolvable then if pageLimit ≤ s.pagesOut s.cur then .error (.stall true) else .ok .page
    else match store with
      | some q => .error (.trapSt (pagef r va) q)
      | none => .error (.trap (pagef r va))

/-- Bytes of the addresses a slot loads and stores without translation: the cluster's scratch window, or an NMV core's local
store (13 R267). -/
def State.scratchMem (s : State) : Memory := if isNmv s.cur then s.me.local_ else (s.cluster (coreCluster s.cur)).mem

/-- Detail word of a scratch address that R240 refuses. -/
def scratchDetail (a : Nat) : Nat := 0x0100_0000 + a

/-- The check of R240 over n bytes at a: on an NMV core only the bound of its local store (13 R267). -/
def State.scratchCheck (s : State) (a : Word) (n : Nat) : Rd Unit :=
  if isNmv s.cur then
    if a.toNat + n ≤ 0x40000 then .ok () else trapA .illop (scratchDetail (Nat.max a.toNat 0x40000)) a
  else match (s.cluster (coreCluster s.cur)).badRange a.toNat n with
    | some b => trapA .illop (scratchDetail b) a
    | none => .ok ()

/-- The core's own withheld bytes over a byte of scratch (13 R264): the latest stands. -/
def Core.ownByte (k : Core) (a : Nat) (b : Byte) : Byte :=
  k.sbuf.foldl (fun b e => match e with
    | .scratch _ bs _ _ => bs.foldl (fun b x => if x.1 = a then x.2 else b) b
    | _ => b) b

/-- Bytes of scratch as the core sees them (13 R264, R268). -/
def State.scratchBytes (s : State) (a n : Nat) : List Byte :=
  ((s.scratchMem.bytes a n).zipIdx a).map (fun e => s.me.ownByte e.2 e.1)

/-- Whether a read of scratch, or of a local store, meets poison (20 R378, R379). -/
def State.scratchSt (s : State) (a n : Nat) : RqSt :=
  match (touchedUnits a n).find? (if isNmv s.cur then s.me.badLocal else (s.cluster (coreCluster s.cur)).poison).contains with
    | some u => .poison (128 * u)
    | none => .ready

/-- The value of a scalar load (13 R268): little-endian, extended by SX. -/
def loadWord (bs : List Byte) (sgn : Bool) : Word :=
  if sgn then BitVec.ofInt 64 (sx (leNat bs) (8 * bs.length)) else BitVec.ofNat 64 (leNat bs)

/-- Queue the result of a load; it goes to K4 too (13 R262). -/
def Core.deliverLoad (k : Core) (lat : Nat) (dest : Dest) (val : Vec) (st : RqSt) : Core :=
  { k with
    pend := k.pend ++ [⟨k.ic + lat, k.ic, k.seq, dest, val, if k.mon.isSome then none else some 4, 0, false, st, 0⟩]
    seq := k.seq + 1 }

/-- Queue a result in the return queue, its data to come (18 R342). -/
def Core.queueRq (k : Core) (lat : Nat) (dest : Dest) (latch : Option (BitVec 3)) (val : Vec) (st : RqSt) (va : Word) : Core :=
  { k with
    pend := k.pend ++ [⟨k.ic + lat, k.ic, k.seq, dest, val, latch, 0, true, st, va⟩]
    seq := k.seq + 1 }

/-- Room in the return queue: a 41st entry stalls the whole core (18 R342, log 4). -/
def Core.rqRoom (k : Core) : Rd Unit := if rqLimit ≤ (k.pend.filter (fun p => p.rq)).length then .error (.stall true) else .ok ()

/-- Destination of a register operand that is scalar or vector. -/
def svDest : SVReg → Dest
  | .s n => destS n false
  | .v n => .v n

/-- Bytes of an access through such an operand, the scalar ones with a size code. -/
def svBytes (sz : Nat) : SVReg → Nat
  | .s _ => 2 ^ sz
  | .v _ => 128

/-- The bytes that a list of bytes from address a on gives, with their addresses. -/
def at_ (a : Nat) (bs : List Byte) : List (Nat × Byte) := (bs.zipIdx a).map (fun e => (e.2, e.1))

/-- A store to scratch: weak, it is withheld (13 R264); strong, every entry before it leaves first and it follows at once
(15 R297). -/
def State.storeScratch (s : State) (strong : Bool) (e : SbEnt) : State :=
  s.upMe (fun k => { k with sbuf := k.sbuf ++ [e], release := if strong then k.sbuf.length + 1 else k.release })

/-- LD (13 R268). -/
def effLd (o : MemS) (s : State) : Except Stop State := do
  let b ← s.rdS 49 o.base.toNat
  let a := b + o.off.signExtend 64
  let n := 2 ^ o.sz.toNat
  aligned a n
  s.scratchCheck a n
  .ok (s.upMe (fun k => k.deliverLoad 6 (destS o.r false) (vecOfWord (loadWord (s.scratchBytes a.toNat n) o.sx))
    (s.scratchSt a.toNat n)))

/-- ST (13 R268). The base is read before the data register (log 103). -/
def effSt (o : MemS) (s : State) : Except Stop State := do
  let b ← s.rdS 49 o.base.toNat
  let v ← s.rdS 50 o.r.toNat
  let a := b + o.off.signExtend 64
  let n := 2 ^ o.sz.toNat
  aligned a n
  s.scratchCheck a n
  .ok (s.storeScratch o.strong (.scratch a.toNat (at_ a.toNat (toBytes n v.toNat)) none s.tc))

/-- The FIFO slice that a vector access at a names, on a compute core (11 R241). -/
def State.fifoAt (s : State) (a : Nat) : Option Nat :=
  if isNmv s.cur ∨ scratchSize ≤ a then none
  else if ((s.cluster (coreCluster s.cur)).slice (sliceOf a)).mode = .fifo then some (sliceOf a) else none

/-- Remove the oldest entry of a FIFO slice; an entry appended in this core cycle is not yet seen (11 R241). -/
def State.fifoTake (s : State) (n : Nat) : Option (FifoEnt × State) :=
  let cl := s.cluster (coreCluster s.cur)
  match (cl.slice n).fifo with
  | e :: es => if e.tc < s.tc then
      some (e, s.setCluster (coreCluster s.cur) { cl with slices := put cl.slices n { cl.slice n with fifo := es } }) else none
  | [] => none

/-- VLD (13 R268, 11 R241). -/
def effVld (o : MemV) (s : State) : Except Stop State := do
  let b ← s.rdS 49 o.base.toNat
  let a := b + (o.off.signExtend 64) * 128
  aligned a 128
  match s.fifoAt a.toNat with
  | some n => match s.fifoTake n with
    | none => .error (.stall false)
    | some (e, s') => .ok (s'.upMe (fun k => k.deliverLoad 6 (.v o.v) e.data (if e.poison then .poison a.toNat else .ready)))
  | none => do
    s.scratchCheck a 128
    .ok (s.upMe (fun k => k.deliverLoad 6 (.v o.v) (bytesVec (s.scratchBytes a.toNat 128)) (s.scratchSt a.toNat 128)))

/-- A vector with its disabled lanes zero (11 R241). -/
def maskLanes (p : BitVec 32) (v : Vec) : Vec := vecOf (fun i => if p.getLsbD i then lane v i else 0)

/-- Bytes of the enabled lanes, lane l at address f l (13 R268). -/
def laneBytes (p : BitVec 32) (v : Vec) (f : Nat → Nat) : List (Nat × Byte) :=
  (upFrom 0 32).flatMap (fun i => if p.getLsbD i then at_ (f i) (toBytes 4 (lane v i).toNat) else [])

/-- VST (13 R268, 11 R241). -/
def effVst (o : MemV) (s : State) : Except Stop State := do
  let b ← s.rdS 49 o.base.toNat
  let v ← s.rdV 50 o.v.toNat
  let p ← s.rdP 51 o.p.toNat
  let a := b + (o.off.signExtend 64) * 128
  aligned a 128
  let e : SbEnt := .scratch a.toNat (laneBytes p v (fun i => a.toNat + 4 * i)) (some (maskLanes p v)) s.tc
  match s.fifoAt a.toNat with
  | some _ => .ok (s.storeScratch o.strong e)
  | none => do
    s.scratchCheck a 128
    .ok (s.storeScratch o.strong e)

/-- Lane addresses of VLDS and VSTS (13 R268). -/
def laneAddrs (a st : Word) : List Word := (upFrom 0 32).map (fun i => a + BitVec.ofNat 64 i * st)

/-- The check of R240 for each address of a list, in its order. -/
def State.scratchChecks (s : State) : List Word → Rd Unit
  | [] => .ok ()
  | a :: as => match s.scratchCheck a 4 with
    | .error e => .error e
    | .ok _ => s.scratchChecks as

/-- Lane state of several reads: the first that is poison. -/
def firstPoison : List RqSt → RqSt
  | [] => .ready
  | .poison a :: _ => .poison a
  | _ :: l => firstPoison l

/-- VLDS (13 R268). -/
def effVlds (o : MemVS) (s : State) : Except Stop State := do
  let b ← s.rdS 49 o.base.toNat
  let st ← s.rdS 50 o.stride.toNat
  let a := b + (o.off.signExtend 64) * 4
  aligned a 4
  aligned st 4
  let as := laneAddrs a st
  s.scratchChecks as
  .ok (s.upMe (fun k => k.deliverLoad 6 (.v o.v)
    (ofLanes (as.map (fun x => BitVec.ofNat 32 (leNat (s.scratchBytes x.toNat 4)))))
    (firstPoison (as.map (fun x => s.scratchSt x.toNat 4)))))

/-- VSTS (13 R268): enabled lanes are stored in lane order; every lane address must be scratch (log 41), or lie in the one FIFO slice. -/
def effVsts (o : MemVS) (s : State) : Except Stop State := do
  let b ← s.rdS 49 o.base.toNat
  let st ← s.rdS 50 o.stride.toNat
  let v ← s.rdV 51 o.v.toNat
  let p ← s.rdP 52 o.p.toNat
  let a := b + (o.off.signExtend 64) * 4
  aligned a 4
  aligned st 4
  let as := laneAddrs a st
  let e : SbEnt := .scratch a.toNat (laneBytes p v (fun i => (as.getD i 0).toNat)) (some (maskLanes p v)) s.tc
  match s.fifoAt a.toNat with
  | some n => match as.find? (fun x => s.fifoAt x.toNat != some n) with
    | some x => trapA .illop (scratchDetail x.toNat) x
    | none => .ok (s.storeScratch o.strong e)
  | none => do
    s.scratchChecks as
    .ok (s.storeScratch o.strong e)

/-- Bytes of spill access: 8 or 128 (13 R267). -/
def svSpill : SVReg → Nat
  | .s _ => 8
  | .v _ => 128

/-- The bound of R237. -/
def spillCheck (off n : Nat) : Rd Unit := if off + n ≤ 0x6000 then .ok () else illop (0x600 + off / 8)

/-- SPL (13 R269): it reads in its issue cycle. -/
def effSpl (r : SVReg) (off : BitVec 15) (s : State) : Except Stop State := do
  spillCheck off.toNat (svSpill r)
  let bs := s.me.spill.bytes off.toNat (svSpill r)
  let bad := (touchedUnits off.toNat (svSpill r)).any s.me.badSpill.contains
  .ok (s.upMe (fun k => k.deliverLoad 1 (svDest r) (bytesVec bs) (if bad then .poison 0 else .ready)))

/-- Read the data register of a store. -/
def State.rdSV (s : State) (ix : Nat) : SVReg → Rd Vec
  | .s n => match s.rdS ix n.toNat with
    | .error e => .error e
    | .ok v => .ok (vecOfWord v)
  | .v n => s.rdV ix n.toNat

/-- SPS (13 R269): it writes in the next issue cycle. -/
def effSps (r : SVReg) (off : BitVec 15) (s : State) : Except Stop State := do
  let v ← s.rdSV 49 r
  spillCheck off.toNat (svSpill r)
  .ok (s.upMe (fun k => { k with bound := k.bound ++ [.spill off.toNat (svSpill r) v] }))

/-- A load through the return queue, under a tag and policy (13 R271): its request leaves at once. -/
def State.loadGlobal (s : State) (r : SVReg) (a : Word) (n : Nat) (sgn : Bool) (tag : Nat) (zero : Bool) : State :=
  let q := { s.newReq (.load sgn) a 0 n 0 with tag := tag, zero := zero, done := false }
  let id := s.nextId
  ((s.addReq q).upMe (fun k => k.queueRq 40 (svDest r) (if k.mon.isSome then none else some 4) 0 .wait a)).owe
    (.globalReadRequest (.core id))

/-- A load whose fault is known at issue, and that no page request resolves, traps there (18 R341, log 78). -/
def State.loadCheck (s : State) (va : Word) (tag : Nat) : Rd Unit :=
  match s.xlate (engOf s.cur) va.toNat tag .read with
  | .fault r => if r.resolvable then .ok () else .error (.trap (pagef r va))
  | _ => .ok ()

/-- GLD (13 R271). -/
def effGld (o : MemG) (s : State) : Except Stop State := do
  let b ← s.rdS 49 o.base.toNat
  let a := b + o.off.signExtend 64
  let n := svBytes o.sz.toNat o.r
  aligned a n
  s.me.rqRoom
  let t := s.resolve s.me a.toNat
  s.loadCheck a t.1
  .ok (s.loadGlobal o.r a n o.sx t.1 t.2)

/-- LDX (13 R271, 03 R43): outside every window it reads tag 0. -/
def effLdx (r : SVReg) (base st : BitVec 6) (off : BitVec 18) (s : State) : Except Stop State := do
  let b ← s.rdS 49 base.toNat
  let t ← s.rdS 50 st.toNat
  let a := b + off.signExtend 64
  let n := svBytes 3 r
  aligned a n
  s.me.rqRoom
  match inWindow (s.windowsOf s.me) a.toNat with
  | some w => do
    s.loadCheck a (t.toNat % 4096)
    .ok (s.loadGlobal r a n false (t.toNat % 4096) w.zero)
  | none => do
    s.loadCheck a 0
    .ok (s.loadGlobal r a n false 0 false)

/-- An access that leaves the core at once, after the entries withheld before it (15 R297), the core waiting for it. -/
def State.accessNow (s : State) (q : Req) (x : XAns) (write : Bool) : State :=
  let s := s.upMe (fun k => { k with release := k.sbuf.length })
  match x with
  | .pa pa => s.upMe (fun k => { k with op := some (.access { q with pa := pa } true) })
  | .page => (s.upMe (fun k => { k with op := some (.access q false) })).sendPage s.cur (engOf s.cur) write q.va

/-- GST (13 R271): weak, only its alignment is checked at issue (13 R265); strong, it is translated and the core waits for its
acknowledgement (13 R266). -/
def effGst (o : MemG) (s : State) : Except Stop State := do
  let b ← s.rdS 49 o.base.toNat
  let v ← s.rdSV 50 o.r
  let a := b + o.off.signExtend 64
  let n := svBytes o.sz.toNat o.r
  aligned a n
  let q := s.newReq (.store o.strong) a 0 n v
  if o.strong then do
    let x ← s.xlateAt a q.tag .write (some q)
    .ok (s.accessNow q x true)
  else .ok (s.upMe (fun k => { k with sbuf := k.sbuf ++ [.req { q with done := false }] }))

/-- Withhold a signal or contribution, translated at issue; a fault that a page request resolves freezes the core (13 R272,
16 R311, R319). -/
def State.withhold (s : State) (q : Req) (x : XAns) : State :=
  match x with
  | .pa pa => s.upMe (fun k => { k with sbuf := k.sbuf ++ [.req { q with pa := pa }] })
  | .page => (s.upMe (fun k => { k with sbuf := k.sbuf ++ [.req { q with done := false }] })).sendPage s.cur (engOf s.cur) true q.va

/-- Instructions that an NMV core does not have (13 R286, 16 R319). -/
def notOnNmv (s : State) : Rd Unit := if isNmv s.cur then illop 0x706 else .ok ()

/-- GACC (13 R272). The base is read before the data and the slot (log 103). -/
def effGacc (vs : BitVec 11) (base sl : BitVec 6) (s : State) : Except Stop State := do
  notOnNmv s
  let a ← s.rdS 49 base.toNat
  let v ← s.rdV 50 vs.toNat
  let l ← s.rdS 51 sl.toNat
  aligned a 128
  let q := s.newReq (.gacc (l.toNat % 65536)) a 0 128 v
  let x ← s.xlateAt a q.tag .gacc none
  .ok (s.withhold q x)

/-- The atomics (13 R273): the core waits from issue until the old value has returned. -/
def atomicOf (kind : AtKind) (o : AtOp) (s : State) : Except Stop State := do
  let a ← s.rdS 49 o.base.toNat
  let v ← s.rdS 50 o.sv.toNat
  let c ← (if kind = .cas then s.rdS 51 o.sc.toNat else .ok 0)
  let n := if o.w64 then 8 else 4
  aligned a n
  s.me.rqRoom
  let q := s.newReq (.atomic kind o.w64 o.sgn v c) a 0 n 0
  let x ← s.xlateAt a q.tag .write none
  .ok ((s.accessNow q x true).upMe (fun k =>
    k.queueRq 40 (destS o.sd false) (if k.mon.isSome then none else some 4) 0 .wait a))

/-- ATADD (13 R273). -/
def effAtadd (o : AtOp) (s : State) : Except Stop State := atomicOf .add o s
/-- ATMIN (13 R273). -/
def effAtmin (o : AtOp) (s : State) : Except Stop State := atomicOf .min o s
/-- ATMAX (13 R273). -/
def effAtmax (o : AtOp) (s : State) : Except Stop State := atomicOf .max o s
/-- ATCAS (13 R273). -/
def effAtcas (o : AtOp) (s : State) : Except Stop State := atomicOf .cas o s
/-- ATSWP (13 R273). -/
def effAtswp (o : AtOp) (s : State) : Except Stop State := atomicOf .swp o s

/-- Whether a sub-rectangle of 2^lw × 2^lh cores is larger than the core's launch (05 R92). -/
def State.subTooLarge (s : State) (lw lh : Nat) : Bool :=
  match s.me.rid.bind (look s.launches) with
  | some l => decide (l.recd.width < 2 ^ lw) || decide (l.recd.height < 2 ^ lh)
  | none => false

/-- PHASE (13 R274, R275): any scope but the core's own releases the buffer and makes the core wait. -/
def effPhase (sc : Scope) (s : State) : Except Stop State :=
  match sc with
  | .core => .ok s
  | .sub lw lh =>
    if s.subTooLarge lw.toNat lh.toNat then illop 0x704
    else .ok (s.upMe (fun k => { k with op := some (.phase sc) }))
  | _ => .ok (s.upMe (fun k => { k with op := some (.phase sc) }))

/-- FENCE (13 R276). -/
def effFence (a b : AccClass) (s : State) : Except Stop State :=
  .ok (s.upMe (fun k => { k with op := some (.fence a b) }))

/-- The physical address of a byte of a bucket's sums, from their 4 KiB pages (16 R330, 22 R405). -/
def Bucket.sumPa (b : Bucket) (e : Nat) : Nat :=
  let o := b.base.toNat % 4096 + 4 * e
  b.pages.getD (o / 4096) 0 + o % 4096

/-- Read n sums from element i on; at or beyond COUNT they read +0 (13 R287). -/
def State.sums (s : State) (b : Bucket) (i n : Nat) : List Lane :=
  (upFrom i n).map (fun e => if e < b.count then BitVec.ofNat 32 (leNat (s.cellRead b.tag (b.sumPa e) 4 b.zero)) else 0)

/-- Write sums from element i on, a multiple of 32, 128 bytes at a time (20 R378), leaving elements at or beyond COUNT; a granule without
room gives CELLFULL's detail. -/
def State.setSums (s : State) (b : Bucket) (i : Nat) (ls : List Lane) : Except (BitVec 32) State :=
  (upFrom 0 (ceilDiv ls.length 32)).foldl (fun r u => match r with
    | .error d => .error d
    | .ok s =>
      let e := i + 32 * u
      let bs := ((ls.drop (32 * u)).take (Nat.min 32 (b.count - e))).flatMap (fun x => toBytes 4 x.toNat)
      if bs.isEmpty then .ok s else s.cellWrite b.tag (b.sumPa e) b.zero bs) (.ok s)

/-- The bucket whose share a core runs, and the index that BKLD and BKST name, checked (13 R287). -/
def State.bucketIndex (s : State) (si : Word) : Rd (Bucket × Nat) :=
  let i := si.toNat % 2 ^ 20
  match s.me.share with
  | none => illop 0x707
  | some sh => match look (s.stack sh.stack).buckets sh.bucket with
    | none => illop 0x707
    | some b => if b.ident = sh.ident ∧ i % 32 = 0 ∧ i < b.count then .ok (b, i) else illop 0x707

/-- The sums that BKLD and BKST name take no request now, and stall the core (12 R256, R258). -/
def State.sumsHeld (s : State) (b : Bucket) (i : Nat) (write : Bool) : Rd Unit :=
  if s.paHeld (b.sumPa i) (4 * Nat.min 32 (b.count - i)) b.tag b.zero write then .error (.stall false) else .ok ()

/-- BKLD (13 R287). -/
def effBkld (v : BitVec 11) (si : BitVec 6) (s : State) : Except Stop State := do
  let x ← s.rdS 49 si.toNat
  let (b, i) ← s.bucketIndex x
  s.me.rqRoom
  s.sumsHeld b i false
  let bad := (upFrom i 32).find? (fun e => decide (e < b.count) && s.cellPoisoned b.tag (b.sumPa e) 4 b.zero)
  .ok ((s.recallRead (b.sumPa i) (4 * Nat.min 32 (b.count - i)) b.tag b.zero none).upMe (fun k => k.queueRq 12 (.v v) (some 4) (ofLanes (s.sums b i 32))
    (match bad with | some e => .poison (b.sumPa e) | none => .ready) 0))

/-- BKST (13 R287): a sum's granule that finds no room traps CELLFULL (03 R49); one that would be materialised from poison consumes it (20
R379). -/
def effBkst (v : BitVec 11) (si : BitVec 6) (s : State) : Except Stop State := do
  let x ← s.rdS 49 si.toNat
  let w ← s.rdV 50 v.toNat
  let (b, i) ← s.bucketIndex x
  s.sumsHeld b i true
  match s.matPoison b.tag (b.sumPa i) b.zero with
  | some p => if s.me.ctag = 0 then .error (.rewind p) else .ok (s.owe (.tagKill s.me.ctag.toNat 1 p))
  | none => match s.setSums b i (lanes w) with
    | .ok s' => .ok s'
    | .error d => .error (.trap ⟨.cellfull, d, b.base + BitVec.ofNat 64 (4 * i)⟩)

/-- The 4 KiB pages that n bytes at an address lie on, by the first address in each. -/
def pagesOf (va n : Nat) : List Nat :=
  va :: (upFrom (va / 4096 + 1) ((va + n - 1) / 4096 - va / 4096)).map (fun p => 4096 * p)

/-- CTLD (13 R288): the core waits until the table is loaded. Both its pages are translated at issue, and their page requests count
together against the limit of R249. -/
def effCtld (base : BitVec 6) (s : State) : Except Stop State := do
  let a ← s.rdS 49 base.toNat
  aligned a 64
  let t := (s.resolve s.me a.toNat).1
  let xs ← ((pagesOf a.toNat 1024).foldl (fun (r : Rd (List Word)) (p : Nat) => do
    let l ← r
    let x ← s.xlateAt (BitVec.ofNat 64 p) t .read none
    match x with
    | .pa _ => .ok l
    | .page => .ok (l ++ [BitVec.ofNat 64 p])) (.ok []))
  if xs ≠ [] ∧ pageLimit < s.pagesOut s.cur + xs.length then .error (.stall true)
  else .ok (xs.foldl (fun s p => s.sendPage s.cur (engOf s.cur) false p) (s.upMe (fun k => { k with op := some (.ctld a) })))

/-- LD, issued. -/
def execLd (o : MemS) (s : State) : Host.Outcome State Fault Refusal := runSlot (effLd o s) s
/-- ST, issued. -/
def execSt (o : MemS) (s : State) : Host.Outcome State Fault Refusal := runSlot (effSt o s) s
/-- VLD, issued. -/
def execVld (o : MemV) (s : State) : Host.Outcome State Fault Refusal := runSlot (effVld o s) s
/-- VST, issued. -/
def execVst (o : MemV) (s : State) : Host.Outcome State Fault Refusal := runSlot (effVst o s) s
/-- VLDS, issued. -/
def execVlds (o : MemVS) (s : State) : Host.Outcome State Fault Refusal := runSlot (effVlds o s) s
/-- VSTS, issued. -/
def execVsts (o : MemVS) (s : State) : Host.Outcome State Fault Refusal := runSlot (effVsts o s) s
/-- SPL, issued. -/
def execSpl (r : SVReg) (off : BitVec 15) (s : State) : Host.Outcome State Fault Refusal := runSlot (effSpl r off s) s
/-- SPS, issued. -/
def execSps (r : SVReg) (off : BitVec 15) (s : State) : Host.Outcome State Fault Refusal := runSlot (effSps r off s) s
/-- GLD, issued. -/
def execGld (o : MemG) (s : State) : Host.Outcome State Fault Refusal := runSlot (effGld o s) s
/-- GST, issued. -/
def execGst (o : MemG) (s : State) : Host.Outcome State Fault Refusal := runSlot (effGst o s) s
/-- LDX, issued. -/
def execLdx (r : SVReg) (base st : BitVec 6) (off : BitVec 18) (s : State) : Host.Outcome State Fault Refusal := runSlot (effLdx r base st off s) s
/-- GACC, issued. -/
def execGacc (vs : BitVec 11) (base sl : BitVec 6) (s : State) : Host.Outcome State Fault Refusal := runSlot (effGacc vs base sl s) s
/-- ATADD, issued. -/
def execAtadd (o : AtOp) (s : State) : Host.Outcome State Fault Refusal := runSlot (effAtadd o s) s
/-- ATMIN, issued. -/
def execAtmin (o : AtOp) (s : State) : Host.Outcome State Fault Refusal := runSlot (effAtmin o s) s
/-- ATMAX, issued. -/
def execAtmax (o : AtOp) (s : State) : Host.Outcome State Fault Refusal := runSlot (effAtmax o s) s
/-- ATCAS, issued. -/
def execAtcas (o : AtOp) (s : State) : Host.Outcome State Fault Refusal := runSlot (effAtcas o s) s
/-- ATSWP, issued. -/
def execAtswp (o : AtOp) (s : State) : Host.Outcome State Fault Refusal := runSlot (effAtswp o s) s
/-- PHASE, issued. -/
def execPhase (sc : Scope) (s : State) : Host.Outcome State Fault Refusal := runSlot (effPhase sc s) s
/-- FENCE, issued. -/
def execFence (ca cb : AccClass) (s : State) : Host.Outcome State Fault Refusal := runSlot (effFence ca cb s) s
/-- BKLD, issued. -/
def execBkld (v : BitVec 11) (si : BitVec 6) (s : State) : Host.Outcome State Fault Refusal := runSlot (effBkld v si s) s
/-- BKST, issued. -/
def execBkst (v : BitVec 11) (si : BitVec 6) (s : State) : Host.Outcome State Fault Refusal := runSlot (effBkst v si s) s
/-- CTLD, issued. -/
def execCtld (base : BitVec 6) (s : State) : Host.Outcome State Fault Refusal := runSlot (effCtld base s) s

end Sys2Proof.Machine
end

