-- ==== Sys2Proof/Machine/Async.lean ====
section
/-! DEFINITION. Async.lean: the data-movement instructions of the asynchronous slot AX (13 R277 to R286). A request joins
`engs` under the next number, with its promise, a TC that only its engine knows (13 R280, log 8). -/

namespace Sys2Proof.Machine

/-- The page an operand's tag and policy come from: scratch form has none (13 R278, 03 R43). -/
def isScratchForm (a : Word) : Bool := a.toNat / 2 ^ 56 == 0xF0
/-- The scratch address of the scratch form; bits [55:25] set make it neither form (13 R278). -/
def scratchForm (a : Word) : Option Nat :=
  if isScratchForm a && fld a.toNat 25 31 == 0 then some (a.toNat % 2 ^ 25) else none

/-- Accept a request of an engine for core c: its number, its promise, its sequence number (13 R280). -/
def State.addEng (s : State) (c : Nat) (k : EngK) (eng : Nat) (dst src : Word) (stack : Nat) : State :=
  let m := s.core c
  let ws := s.windowsOf m
  let st := if isScratchForm src then (0, false) else resolveIn ws m.ctag.toNat src.toNat
  let dt := if isScratchForm dst then (0, false) else resolveIn ws m.ctag.toNat dst.toNat
  let e : Eng := { k := k, eng := eng, core := c, rid := m.rid, seqno := m.pseq,
                   promise := (Config.promise s.nextId).toNat, dst := dst, src := src, srcTag := st.1, srcZero := st.2,
                   dstTag := dt.1, dstZero := dt.2, wins := ws, owner := m.ctag.toNat, iss := m.ic, broken := false, page := none, prog := 0, stack := stack }
  ({ s with engs := put s.engs s.nextId e, nextId := s.nextId + 1 }).setCore c { m with pseq := (m.pseq + 1) % 4096 }

/-- The promise of the request accepted next. -/
def State.nextPromise (s : State) : Word := Config.promise s.nextId

/-- Queue a copy, and its promise, readable 2 issue cycles on, for no latch (13 R280). A copy of 0 bytes is complete at issue
and leaves nothing to do (13 R278). -/
def State.copyOf (s : State) (sd : BitVec 6) (dst src : Word) (k : EngK) (eng bytes : Nat) : State :=
  let p := s.nextPromise
  let id := s.nextId
  let s := s.addEng s.cur k eng dst src 0
  let s := if bytes = 0 then { s with engs := del s.engs id } else s.owe (.copyComplete id)
  s.upMe (fun m => m.deliver 2 (destS sd false) none (vecOfWord p) 0)

/-- A free entry of the core's copy queue (13 R280). -/
def State.copyRoom (s : State) : Rd Unit := if 16 ≤ s.engsOf s.cur [0, 1, 2] then .error (.stall true) else .ok ()

/-- CPY (13 R277, R278). -/
def effCpy (sd s1 s2 s3 : BitVec 6) (s : State) : Except Stop State := do
  notOnNmv s
  let d ← s.rdS 57 s1.toNat
  let a ← s.rdS 58 s2.toNat
  let n ← s.rdS 59 s3.toNat
  s.copyRoom
  let len := n.toNat % 2 ^ 32
  .ok (s.copyOf sd d a (.copy 1 len 0 0 none) 0 len)

/-- The spill offset of a descriptor (13 R277): a multiple of 64 below 0x5FC0, the operand's bits [63:15] zero. -/
def descOffset (o : Word) : Rd Nat :=
  if o.toNat < 0x5FC0 ∧ o.toNat % 64 = 0 then .ok o.toNat else illop 0x703

/-- A descriptor's bytes in spill memory; poison consumed there rewinds (20 R379). -/
def State.descNat (s : State) (off n : Nat) : Nat := s.me.spill.nat off n
/-- See `State.descNat`. -/
def State.descCheck (s : State) (off : Nat) : Rd Unit :=
  if s.me.badSpill.contains (off / 128) then .error (.rewind 0) else .ok ()

/-- CPYS (13 R277 to R279). -/
def effCpys (sd s1 s2 s3 : BitVec 6) (s : State) : Except Stop State := do
  notOnNmv s
  let d ← s.rdS 57 s1.toNat
  let a ← s.rdS 58 s2.toNat
  let o ← s.rdS 59 s3.toNat
  let off ← descOffset o
  s.descCheck off
  let rows := s.descNat off 4
  let len := s.descNat (off + 4) 4
  let ctr : Word := BitVec.ofNat 64 (s.descNat (off + 0x18) 8)
  if rows = 0 ∨ 1048576 < rows ∨ len = 0 ∨ 16777216 < len ∨ ctr.toNat % 8 ≠ 0 then illop 0x703
  else do
    s.copyRoom
    .ok (s.copyOf sd d a (.copy rows len (BitVec.ofNat 64 (s.descNat (off + 8) 8)) (BitVec.ofNat 64 (s.descNat (off + 0x10) 8))
      (if ctr = 0 then none else some ctr)) 1 (rows * len))

/-- SLSET (13 R282): its fields are checked at issue; it acts at its stitch (20 R380). -/
def effSlset (s1 : BitVec 6) (slv : BitVec 3) (s : State) : Except Stop State := do
  notOnNmv s
  let o ← s.rdS 57 s1.toNat
  let off ← descOffset o
  s.descCheck off
  let ring := s.descNat (off + 0x10) 4
  let rstride := s.descNat (off + 0x14) 4
  let rowlen := s.descNat (off + 0x18) 4
  let slots := s.descNat (off + 0x1C) 2
  let total := s.descNat (off + 0x20) 4
  let first := s.descNat (off + 0x24) 2
  if ring % 128 ≠ 0 ∨ rstride % 128 ≠ 0 ∨ rstride < rowlen ∨ rowlen % 128 ≠ 0 ∨ rowlen < 128 ∨ 786432 < rowlen ∨ slots = 0
      ∨ 4096 < slots ∨ total = 0 ∨ slots < first then illop 0x703
  else
    let sl : Sleeve := { src := BitVec.ofNat 64 (s.descNat off 8), sstride := BitVec.ofNat 64 (s.descNat (off + 8) 8), ring := ring,
                         rstride := rstride, rowlen := rowlen, slots := slots, total := total, first := first, head := 0,
                         next := Nat.min first total, filled := [], fault := false, lost := [] }
    .ok (s.upMe (fun k => { k with stitchOp := some (.slset slv sl) }))

/-- Rows that a sleeve holds, filled or not (13 R283). -/
def Sleeve.held (x : Sleeve) : Nat := x.next - x.head

/-- SLADV (13 R283): checked at issue; it acts at its stitch. -/
def effSladv (sd s1 : BitVec 6) (slv : BitVec 3) (s : State) : Except Stop State := do
  notOnNmv s
  let o ← s.rdS 57 s1.toNat
  let n := o.toNat % 8192
  match look s.me.sleeves slv.toNat with
  | none => illop 0x702
  | some x =>
    if x.fault ∨ x.held < n then illop 0x702
    else .ok (s.upMe (fun k => { k with stitchOp := some (.sladv sd slv n) }))

/-- GTH (13 R284). -/
def effGth (sd s1 s2 s3 spt : BitVec 6) (s : State) : Except Stop State := do
  notOnNmv s
  let d ← s.rdS 57 s1.toNat
  let a ← s.rdS 58 s2.toNat
  let n ← s.rdS 59 s3.toNat
  if 16 ≤ s.engsOf s.cur [3] then .error (.stall true)
  else
    let p := s.nextPromise
    let id := s.nextId
    let s := (s.addEng s.cur (.gather spt.toNat (n.toNat % 2 ^ 32)) 3
      (BitVec.ofNat 64 (0xF0 * 2 ^ 56 + d.toNat % 2 ^ 25)) a 0).owe (.gatherRequest id)
    .ok (s.upMe (fun m => m.deliver 2 (destS sd false) none (vecOfWord p) 0))

/-- Whether a launch's rectangle covers the whole cluster of a core (13 R285). -/
def Launch.covers (l : Launch) (cl : Nat) : Bool := (clusterCores cl).all l.cores.contains

/-- The lowest slice named by a mask that must leave FIFO with entries pending (13 R285). -/
def Cluster.fifoBusy (k : Cluster) (mask : BitVec 32) (mode : SliceMode) : Option Nat :=
  (upFrom 0 32).find? (fun n => mask.getLsbD n && decide (mode ≠ .fifo) && decide ((k.slice n).mode = .fifo)
    && !(k.slice n).fifo.isEmpty)

/-- SLMODE (13 R285): checked at issue; it acts at its stitch. -/
def effSlmode (s1 : BitVec 6) (mode : SliceMode) (s : State) : Except Stop State := do
  notOnNmv s
  let m ← s.rdS 57 s1.toNat
  let mask : BitVec 32 := m.setWidth 32
  let cl := coreCluster s.cur
  if (match s.me.rid.bind (look s.launches) with | some l => l.covers cl | none => false) then
    match (s.cluster cl).fifoBusy mask mode with
    | some n => trapD .fifobusy n
    | none => .ok (s.upMe (fun k => { k with stitchOp := some (.slmode mask mode s.tc) }))
  else illop 0x705

/-- CPY, issued. -/
def execCpy (sd s1 s2 s3 : BitVec 6) (s : State) : Host.Outcome State Fault Refusal := runSlot (effCpy sd s1 s2 s3 s) s
/-- CPYS, issued. -/
def execCpys (sd s1 s2 s3 : BitVec 6) (s : State) : Host.Outcome State Fault Refusal := runSlot (effCpys sd s1 s2 s3 s) s
/-- SLSET, issued. -/
def execSlset (s1 : BitVec 6) (slv : BitVec 3) (s : State) : Host.Outcome State Fault Refusal := runSlot (effSlset s1 slv s) s
/-- SLADV, issued. -/
def execSladv (sd s1 : BitVec 6) (slv : BitVec 3) (s : State) : Host.Outcome State Fault Refusal := runSlot (effSladv sd s1 slv s) s
/-- GTH, issued. -/
def execGth (sd s1 s2 s3 spt : BitVec 6) (s : State) : Host.Outcome State Fault Refusal := runSlot (effGth sd s1 s2 s3 spt s) s
/-- SLMODE, issued. -/
def execSlmode (s1 : BitVec 6) (mode : SliceMode) (s : State) : Host.Outcome State Fault Refusal := runSlot (effSlmode s1 mode s) s

end Sys2Proof.Machine
end

