-- ==== Sys2Proof/Machine/Scalar.lean ====
section
/-! DEFINITION. Scalar.lean: the scalar slots SA and SB (08 R167 to R176, 18 R352). A result is queued with its latency (07
R135); the last-use marks of the sources are queued with it (06 R119). -/

namespace Sys2Proof.Machine

/-- Read SRC1 and SRC2 of a scalar slot, in that order. -/
def State.rdS2 (s : State) (o : SOp2) : Rd (Word × Word) := do
  let a ← s.rdSSrc (sIx o.side + 1) o.a
  let b ← s.rdSSrc (sIx o.side + 2) o.b
  .ok (a, b)

/-- Deliver a scalar result and queue the marks of its sources. -/
def State.giveS (s : State) (h : SHead) (lat : Nat) (dying : List Nat) (x : Word) : State :=
  s.upMe (fun k => (k.kill dying).deliverS h lat x)

/-- A result that the follower of a pair has different lands after L issue cycles (07 R151, R152): the cycles do not match. -/
def Core.differs (k : Core) (h : SHead) (lat : Nat) : Core :=
  if k.paired && (k.mon.isNone || destS h.d h.wbs != .none) then { k with pairBad := some (k.pairBad.getD (k.ic + lat)) } else k

/-- A result of two sources. -/
def sBin (o : SOp2) (lat : Nat) (f : Word → Word → Word) (s : State) : Except Stop State := do
  let (a, b) ← s.rdS2 o
  .ok (s.giveS o.toSHead lat (sDying o.a ++ sDying o.b) (f a b))

/-- A result of one source. -/
def sUn (h : SHead) (src : SSrc) (f : Word → Word) (s : State) : Except Stop State := do
  let a ← s.rdSSrc (sIx h.side + 1) src
  .ok (s.giveS h 1 (sDying src) (f a))

/-- A shift: its amount is the immediate, or bits [5:0] of SRC2 (08 R168). -/
def sShift (o : SShift) (f : Word → Nat → Word) (s : State) : Except Stop State := do
  let a ← s.rdSSrc (sIx o.side + 1) o.a
  match o.amt with
  | .imm n => .ok (s.giveS o.toSHead 1 (sDying o.a) (f a n.toNat))
  | .reg b => do
    let b' ← s.rdSSrc (sIx o.side + 2) b
    .ok (s.giveS o.toSHead 1 (sDying o.a ++ sDying b) (f a (b'.toNat % 64)))

/-- Bits [127:64] of the signed product (08 R167). -/
def mulHigh (a b : Word) : Word := (a.signExtend 128 * b.signExtend 128).extractLsb' 64 64
/-- Bits [127:64] of the unsigned product. -/
def mulHighN (a b : Word) : Word := (a.setWidth 128 * b.setWidth 128).extractLsb' 64 64
/-- Rotate right (08 R168). -/
def rotRight (a : Word) (n : Nat) : Word := a >>> n ||| a <<< (64 - n)
/-- Zero bits above the highest set bit, of the low n bits (08 R170). -/
def clzN : Nat → Nat → Nat
  | 0, _ => 0
  | n + 1, v => if bit v n then 0 else 1 + clzN n v
/-- Zero bits below the lowest set bit, of n bits. -/
def ctzN : Nat → Nat → Nat
  | 0, _ => 0
  | n + 1, v => if bit v 0 then 0 else 1 + ctzN n (v / 2)
/-- Set bits among n. -/
def popN : Nat → Nat → Nat
  | 0, _ => 0
  | n + 1, v => v % 2 + popN n (v / 2)
/-- Width of a code in bits (08 R170). -/
def extBits : ExtWidth → Nat
  | .w8 => 8 | .w16 => 16 | .w32 => 32
/-- Sign extension of the low w bits (08 R170). -/
def sextW (w : Nat) (a : Word) : Word := (a.setWidth w).signExtend 64
/-- Zero extension of the low w bits. -/
def zextW (w : Nat) (a : Word) : Word := (a.setWidth w).setWidth 64
/-- The conditions of CMP (08 R171). -/
def scmp : SCond → Word → Word → Bool
  | .eq, a, b => a == b
  | .ne, a, b => a != b
  | .lt, a, b => a.slt b
  | .ge, a, b => !a.slt b
  | .ltn, a, b => a.ult b
  | .gen, a, b => !a.ult b
  | .tst, a, b => a &&& b != 0

/-- ADD (08 R167). -/
def effAdd (o : SOp2) (s : State) : Except Stop State := sBin o 1 (fun a b => a + b) s
/-- SUB (08 R167). -/
def effSub (o : SOp2) (s : State) : Except Stop State := sBin o 1 (fun a b => a - b) s
/-- ADDI (08 R167). -/
def effAddi (o : SOpI) (s : State) : Except Stop State := sUn o.toSHead o.a (fun a => a + o.imm.signExtend 64) s
/-- ADDSH (08 R167). -/
def effAddsh (o : SOp2) (sh : BitVec 6) (s : State) : Except Stop State := sBin o 1 (fun a b => a + b <<< sh.toNat) s
/-- MUL (08 R167). -/
def effMul (o : SOp2) (s : State) : Except Stop State := sBin o 3 (fun a b => a * b) s
/-- MULH (08 R167). -/
def effMulh (o : SOp2) (s : State) : Except Stop State := sBin o 3 (fun a b => mulHigh a b) s
/-- MULHN (08 R167). -/
def effMulhn (o : SOp2) (s : State) : Except Stop State := sBin o 3 (fun a b => mulHighN a b) s
/-- AND (08 R167). -/
def effAnd (o : SOp2) (s : State) : Except Stop State := sBin o 1 (fun a b => a &&& b) s
/-- OR (08 R167). -/
def effOr (o : SOp2) (s : State) : Except Stop State := sBin o 1 (fun a b => a ||| b) s
/-- XOR (08 R167). -/
def effXor (o : SOp2) (s : State) : Except Stop State := sBin o 1 (fun a b => a ^^^ b) s
/-- ANDN (08 R167). -/
def effAndn (o : SOp2) (s : State) : Except Stop State := sBin o 1 (fun a b => a &&& ~~~b) s
/-- SHL (08 R168). -/
def effShl (o : SShift) (s : State) : Except Stop State := sShift o (fun a n => a <<< n) s
/-- SHR (08 R168). -/
def effShr (o : SShift) (s : State) : Except Stop State := sShift o (fun a n => a >>> n) s
/-- SHRA (08 R168). -/
def effShra (o : SShift) (s : State) : Except Stop State := sShift o (fun a n => a.sshiftRight n) s
/-- ROTR (08 R168). -/
def effRotr (o : SShift) (s : State) : Except Stop State := sShift o (fun a n => rotRight a n) s
/-- MIN (08 R169). -/
def effMin (o : SOp2) (s : State) : Except Stop State := sBin o 1 (fun a b => if b.slt a then b else a) s
/-- MAX (08 R169). -/
def effMax (o : SOp2) (s : State) : Except Stop State := sBin o 1 (fun a b => if a.slt b then b else a) s
/-- MINN (08 R169). -/
def effMinn (o : SOp2) (s : State) : Except Stop State := sBin o 1 (fun a b => if b.ult a then b else a) s
/-- MAXN (08 R169). -/
def effMaxn (o : SOp2) (s : State) : Except Stop State := sBin o 1 (fun a b => if a.ult b then b else a) s
/-- CLZ (08 R170). -/
def effClz (o : SOp1) (s : State) : Except Stop State := sUn o.toSHead o.a (fun a => BitVec.ofNat 64 (clzN 64 a.toNat)) s
/-- CTZ (08 R170). -/
def effCtz (o : SOp1) (s : State) : Except Stop State := sUn o.toSHead o.a (fun a => BitVec.ofNat 64 (ctzN 64 a.toNat)) s
/-- POPC (08 R170). -/
def effPopc (o : SOp1) (s : State) : Except Stop State := sUn o.toSHead o.a (fun a => BitVec.ofNat 64 (popN 64 a.toNat)) s
/-- SEXT (08 R170). -/
def effSext (o : SOp1) (w : ExtWidth) (s : State) : Except Stop State := sUn o.toSHead o.a (sextW (extBits w)) s
/-- ZEXT (08 R170). -/
def effZext (o : SOp1) (w : ExtWidth) (s : State) : Except Stop State := sUn o.toSHead o.a (zextW (extBits w)) s
/-- LI (08 R167). -/
def effLi (h : SHead) (imm : BitVec 18) (s : State) : Except Stop State := .ok (s.giveS h 1 [] (imm.signExtend 64))
/-- LIH (08 R167). -/
def effLih (o : SOpI) (s : State) : Except Stop State := sUn o.toSHead o.a (fun a => a <<< 18 + o.imm.setWidth 64) s
/-- MOV (08 R167). -/
def effMov (o : SOp1) (s : State) : Except Stop State := sUn o.toSHead o.a (fun a => a) s
/-- SEL (08 R167): both sources are read, and the flag. -/
def effSel (o : SOp2) (f : BitVec 3) (s : State) : Except Stop State := do
  let (a, b) ← s.rdS2 o
  let c ← s.rdF (sIx o.side + 3) f.toNat
  .ok (s.giveS o.toSHead 1 (sDying o.a ++ sDying o.b) (if c then a else b))
/-- CMP (08 R171): a flag, and the latch of its slot takes 1 or 0. -/
def effCmp (side : Side) (f : BitVec 3) (wbs : Bool) (cc : SCond) (a b : SSrc) (s : State) : Except Stop State := do
  let x ← s.rdSSrc (sIx side + 1) a
  let y ← s.rdSSrc (sIx side + 2) b
  .ok (s.upMe (fun k => (k.kill (sDying a ++ sDying b)).deliver 1 (destF f wbs) (some (sLatch side))
    (if scmp cc x y then 1 else 0) 0))
/-- RDIX (08 R172): entry of the loop-index stack; at or above LDEPTH 0. -/
def effRdix (h : SHead) (level : BitVec 3) (s : State) : Except Stop State :=
  .ok (s.giveS h 1 [] (match s.me.loops[level.toNat]? with
    | some e => e.ix.setWidth 64
    | none => 0))
/-- RDTC (08 R172). -/
def effRdtc (h : SHead) (s : State) : Except Stop State := .ok (s.giveS h 1 [] (BitVec.ofNat 64 s.tc))

/-- The launch of a core, blank for none. -/
def State.launchOf (s : State) (k : Core) : Launch := (k.rid.bind (look s.launches)).getD Launch.blank

/-- The identities of MYXY (08 R173). -/
def myxyOf (s : State) (c : Nat) : XYForm → Nat
  | .abs => if isNmv c then nmvStack c + 2 ^ 16 * nmvNum c else coreX c + 2 ^ 16 * coreY c
  | .rel => if isNmv c then 0 else (coreX c - (s.launchOf (s.core c)).x0) + 2 ^ 16 * (coreY c - (s.launchOf (s.core c)).y0)
  | .log => if isNmv c then 0 else (s.core c).lidx +
      2 ^ 16 * ((s.launchOf (s.core c)).recd.width / (if (s.core c).paired then 2 else 1) * (s.launchOf (s.core c)).recd.height)
  | .die => if isNmv c then nmvStack c else coreDie c + 2 ^ 8 * coreClusterInDie c + 2 ^ 16 * coreInCluster c
/-- MYXY (08 R173). -/
def effMyxy (h : SHead) (form : XYForm) (s : State) : Except Stop State :=
  .ok (s.giveS h 1 [] (BitVec.ofNat 64 (myxyOf s s.cur form)))

/-- System register by number (06 R118). -/
def Core.sysreg (k : Core) : Nat → Option Word
  | 0 => some (k.ctag.setWidth 64)
  | 1 => some (k.token.setWidth 64)
  | 2 => some (k.seed0.setWidth 64)
  | 3 => some (k.seed1.setWidth 64)
  | 4 => some (k.flags.setWidth 64)
  | 5 => some k.sysMode
  | 6 => some k.tfbase
  | 7 => some k.cause
  | 8 => some (BitVec.ofNat 64 (2 ^ 16 * k.ev.toNat + k.mask.toNat))
  | _ => none
/-- RDSYS (08 R174). -/
def effRdsys (h : SHead) (num : BitVec 10) (s : State) : Except Stop State :=
  match s.me.sysreg num.toNat with
  | some v => .ok ((if num = 5 then s.upMe (fun k => k.differs h 1) else s).giveS h 1 [] v)
  | none => illop (0xC00 + num.toNat)
/-- WRSYS (08 R174): the write lands in the next issue cycle. The source is read, with its traps, before the number is judged (log 104). -/
def effWrsys (side : Side) (num : BitVec 10) (a : SSrc) (s : State) : Except Stop State := do
  let x ← s.rdSSrc (sIx side + 1) a
  if (s.me.sysreg num.toNat).isNone then illop (0xC00 + num.toNat)
  else if num.toNat < 2 then illop (0x20000 + num.toNat)
  else .ok (s.upMe (fun k => let k := k.kill (sDying a); { k with bound := k.bound ++ [.sys num.toNat x] }))
/-- TFLD: a word of the trap frame; kernel code traps (18 R351, R352). Word 5 holds FOLLOW, as SYS.MODE does, which differs on a pair (07 R151). -/
def effTfld (side : Side) (d : BitVec 6) (word : BitVec 10) (s : State) : Except Stop State :=
  if s.me.mon.isNone then illop 0x23
  else .ok ((if word = 5 then s.upMe (fun k => k.differs ⟨side, d, false⟩ 1) else s).giveS ⟨side, d, false⟩ 1 [] (BitVec.ofNat 64 (s.me.tf word.toNat)))
/-- TFST: a word of the trap frame in the next issue cycle; reserved words ignore it (18 R345, R351, R352). In kernel code it traps before its
source is read (log 104). -/
def effTfst (side : Side) (word : BitVec 10) (a : SSrc) (s : State) : Except Stop State :=
  if s.me.mon.isNone then illop 0x24
  else do
    let x ← s.rdSSrc (sIx side + 1) a
    .ok (s.upMe (fun k => let k := k.kill (sDying a); { k with bound := k.bound ++ [.tf word.toNat x] }))

/-- ADD, issued. -/
def execAdd (o : SOp2) (s : State) : Host.Outcome State Fault Refusal := runSlot (effAdd o s) s
/-- SUB, issued. -/
def execSub (o : SOp2) (s : State) : Host.Outcome State Fault Refusal := runSlot (effSub o s) s
/-- ADDI, issued. -/
def execAddi (o : SOpI) (s : State) : Host.Outcome State Fault Refusal := runSlot (effAddi o s) s
/-- ADDSH, issued. -/
def execAddsh (o : SOp2) (sh : BitVec 6) (s : State) : Host.Outcome State Fault Refusal := runSlot (effAddsh o sh s) s
/-- MUL, issued. -/
def execMul (o : SOp2) (s : State) : Host.Outcome State Fault Refusal := runSlot (effMul o s) s
/-- MULH, issued. -/
def execMulh (o : SOp2) (s : State) : Host.Outcome State Fault Refusal := runSlot (effMulh o s) s
/-- MULHN, issued. -/
def execMulhn (o : SOp2) (s : State) : Host.Outcome State Fault Refusal := runSlot (effMulhn o s) s
/-- AND, issued. -/
def execAnd (o : SOp2) (s : State) : Host.Outcome State Fault Refusal := runSlot (effAnd o s) s
/-- OR, issued. -/
def execOr (o : SOp2) (s : State) : Host.Outcome State Fault Refusal := runSlot (effOr o s) s
/-- XOR, issued. -/
def execXor (o : SOp2) (s : State) : Host.Outcome State Fault Refusal := runSlot (effXor o s) s
/-- ANDN, issued. -/
def execAndn (o : SOp2) (s : State) : Host.Outcome State Fault Refusal := runSlot (effAndn o s) s
/-- SHL, issued. -/
def execShl (o : SShift) (s : State) : Host.Outcome State Fault Refusal := runSlot (effShl o s) s
/-- SHR, issued. -/
def execShr (o : SShift) (s : State) : Host.Outcome State Fault Refusal := runSlot (effShr o s) s
/-- SHRA, issued. -/
def execShra (o : SShift) (s : State) : Host.Outcome State Fault Refusal := runSlot (effShra o s) s
/-- ROTR, issued. -/
def execRotr (o : SShift) (s : State) : Host.Outcome State Fault Refusal := runSlot (effRotr o s) s
/-- MIN, issued. -/
def execMin (o : SOp2) (s : State) : Host.Outcome State Fault Refusal := runSlot (effMin o s) s
/-- MAX, issued. -/
def execMax (o : SOp2) (s : State) : Host.Outcome State Fault Refusal := runSlot (effMax o s) s
/-- MINN, issued. -/
def execMinn (o : SOp2) (s : State) : Host.Outcome State Fault Refusal := runSlot (effMinn o s) s
/-- MAXN, issued. -/
def execMaxn (o : SOp2) (s : State) : Host.Outcome State Fault Refusal := runSlot (effMaxn o s) s
/-- CLZ, issued. -/
def execClz (o : SOp1) (s : State) : Host.Outcome State Fault Refusal := runSlot (effClz o s) s
/-- CTZ, issued. -/
def execCtz (o : SOp1) (s : State) : Host.Outcome State Fault Refusal := runSlot (effCtz o s) s
/-- POPC, issued. -/
def execPopc (o : SOp1) (s : State) : Host.Outcome State Fault Refusal := runSlot (effPopc o s) s
/-- SEXT, issued. -/
def execSext (o : SOp1) (w : ExtWidth) (s : State) : Host.Outcome State Fault Refusal := runSlot (effSext o w s) s
/-- ZEXT, issued. -/
def execZext (o : SOp1) (w : ExtWidth) (s : State) : Host.Outcome State Fault Refusal := runSlot (effZext o w s) s
/-- LI, issued. -/
def execLi (h : SHead) (imm : BitVec 18) (s : State) : Host.Outcome State Fault Refusal := runSlot (effLi h imm s) s
/-- LIH, issued. -/
def execLih (o : SOpI) (s : State) : Host.Outcome State Fault Refusal := runSlot (effLih o s) s
/-- MOV, issued. -/
def execMov (o : SOp1) (s : State) : Host.Outcome State Fault Refusal := runSlot (effMov o s) s
/-- SEL, issued. -/
def execSel (o : SOp2) (f : BitVec 3) (s : State) : Host.Outcome State Fault Refusal := runSlot (effSel o f s) s
/-- CMP, issued. -/
def execCmp (side : Side) (f : BitVec 3) (wbs : Bool) (cc : SCond) (a b : SSrc) (s : State) : Host.Outcome State Fault Refusal := runSlot (effCmp side f wbs cc a b s) s
/-- RDIX, issued. -/
def execRdix (h : SHead) (level : BitVec 3) (s : State) : Host.Outcome State Fault Refusal := runSlot (effRdix h level s) s
/-- RDTC, issued. -/
def execRdtc (h : SHead) (s : State) : Host.Outcome State Fault Refusal := runSlot (effRdtc h s) s
/-- MYXY, issued. -/
def execMyxy (h : SHead) (form : XYForm) (s : State) : Host.Outcome State Fault Refusal := runSlot (effMyxy h form s) s
/-- RDSYS, issued. -/
def execRdsys (h : SHead) (num : BitVec 10) (s : State) : Host.Outcome State Fault Refusal := runSlot (effRdsys h num s) s
/-- WRSYS, issued. -/
def execWrsys (side : Side) (num : BitVec 10) (a : SSrc) (s : State) : Host.Outcome State Fault Refusal := runSlot (effWrsys side num a s) s
/-- TFLD, issued. -/
def execTfld (side : Side) (d : BitVec 6) (word : BitVec 10) (s : State) : Host.Outcome State Fault Refusal := runSlot (effTfld side d word s) s
/-- TFST, issued. -/
def execTfst (side : Side) (word : BitVec 10) (a : SSrc) (s : State) : Host.Outcome State Fault Refusal := runSlot (effTfst side word a s) s

end Sys2Proof.Machine
end

