-- ==== Sys2Proof/Machine/Transcend.lean ====
section
/-! DEFINITION. Transcend.lean: the correctly rounded functions of 09 R184 and R185, on integers. Quotients and roots are exact
up to a sticky bit. The others are enclosed between two fixed-point bounds of p bits; when both ends round alike the result
is that, and otherwise p doubles, at most five times (log 10). -/

namespace Sys2Proof.Machine

/-- Integer square root by its bits from bit i down, from a root r found so far. -/
def isqrtBits (n : Nat) : Nat → Nat → Nat
  | 0, r => if (r + 1) * (r + 1) ≤ n then r + 1 else r
  | i + 1, r => if (r + 2 ^ (i + 1)) * (r + 2 ^ (i + 1)) ≤ n then isqrtBits n i (r + 2 ^ (i + 1)) else isqrtBits n i r

/-- Integer square root. -/
def isqrt (n : Nat) : Nat := isqrtBits n (Nat.log2 n / 2 + 1) 0

/-- q × 2^e with a sticky bit below it. -/
def stickyFV (neg : Bool) (q : Nat) (sticky : Bool) (e : Int) : FV := .fin neg (2 * q + (if sticky then 1 else 0)) (e - 1)

/-- 1 / a for a nonzero finite (09 R184). -/
def rcpFV (neg : Bool) (m : Nat) (e : Int) : FV :=
  let k := Nat.log2 m + 64
  stickyFV neg (2 ^ k / m) (2 ^ k % m != 0) (-(k : Int) - e)

/-- √a for a positive finite. -/
def sqrtFV (m : Nat) (e : Int) : FV :=
  let (m, e) := if e % 2 = 0 then (m, e) else (2 * m, e - 1)
  let big := m * 2 ^ 128
  let r := isqrt big
  stickyFV false r (r * r != big) (e / 2 - 64)

/-- 1 / √a for a positive finite. -/
def rsqFV (m : Nat) (e : Int) : FV :=
  let (m, e) := if e % 2 = 0 then (m, e) else (2 * m, e - 1)
  let h := Nat.log2 m + 64
  let r := isqrt (2 ^ (2 * h) / m)
  stickyFV false r (r * r * m != 2 ^ (2 * h)) (-(h : Int) - e / 2)

/-- Σ 1 / (j 2^j) for j = k, …, k + n - 1, at p bits, each term cut down: from k = 1 with n = p it is ln 2, short by at most
p + 1 units. -/
def ln2Sum (p : Nat) : Nat → Nat → Nat
  | _, 0 => 0
  | k, n + 1 => 2 ^ p / (k * 2 ^ k) + ln2Sum p (k + 1) n

/-- ln 2 at p bits, short by at most p + 1 units. -/
def ln2Fix (p : Nat) : Nat := ln2Sum p 1 p

/-- Σ of t^j / j! over n terms from term j with value `term`, at p bits, cut down at each step: short by at most n units
when t < 2^p. -/
def expSum (p t : Nat) : Nat → Nat → Nat → Nat
  | _, _, 0 => 0
  | j, term, n + 1 => term + expSum p t (j + 1) (term * t / (2 ^ p * j)) n

/-- e^t at p bits for 0 ≤ t < 1, short by at most 4 p units. -/
def expFix (p t : Nat) : Nat := expSum p t 1 (2 ^ p) p

/-- Σ of z^(2j+1)/(2j+1) over n terms from j, at p bits: atanh z, short by at most 3 n units for z ≤ 1/3. -/
def atanhSum (p z2 : Nat) : Nat → Nat → Nat → Nat
  | _, _, 0 => 0
  | j, zp, n + 1 => zp / (2 * j + 1) + atanhSum p z2 (j + 1) (zp * z2 / 2 ^ p) n

/-- Bounds: a value between lo and hi, times 2^e. -/
structure Encl where
  neg : Bool
  lo : Nat
  hi : Nat
  e : Int
  deriving DecidableEq, Repr

/-- An enclosure of ± err units. -/
def encl (neg : Bool) (v err : Nat) (e : Int) : Encl := ⟨neg, v - err, v + err, e⟩

/-- 2^f for f = t / 2^p in [0, 1), at p bits (09 R184). -/
def exp2Frac (p t : Nat) : Nat := expFix p (t * ln2Fix p / 2 ^ p)

/-- Fixed-point value of m × 2^e at p bits, cut down. -/
def fixAt (p m : Nat) (e : Int) : Nat :=
  if 0 ≤ e + p then m * 2 ^ (e + p).toNat else m / 2 ^ (-(e + p)).toNat

/-- Enclosure of 2^a for a finite a that is no integer, |a| below 512 (09 R184). -/
def exp2Encl (p : Nat) (neg : Bool) (m : Nat) (e : Int) : Encl :=
  let x := fixAt p m e
  let fr := x % 2 ^ p
  let n : Int := ((x / 2 ^ p : Nat) : Int)
  -- a = n + fr / 2^p, or - a likewise, which is -(n + 1) + (1 - fr / 2^p)
  if neg then encl false (exp2Frac p (2 ^ p - fr)) (16 * p) (-(n + 1) - p)
  else encl false (exp2Frac p fr) (16 * p) (n - p)

/-- log2 a at p bits with its sign, for a finite positive a (09 R184): the exponent and the logarithm of y in [1, 2). -/
def log2Encl (p m : Nat) (e : Int) : Encl :=
  let l := Nat.log2 m
  let k : Int := (l : Int) + e
  -- z = (y - 1) / (y + 1) with y = m / 2^l
  let z := (m - 2 ^ l) * 2 ^ p / (m + 2 ^ l)
  let ln := 2 * atanhSum p (z * z / 2 ^ p) 0 z p
  let fr := ln * 2 ^ p / ln2Fix p
  let v : Int := k * 2 ^ p + fr
  encl (decide (v < 0)) v.natAbs (32 * p) (-(p : Int))

/-- e^(-a) for a positive finite a below 2^11, as M × 2^(-p - n - 1): M and n (09 R184). -/
def expNeg (p m : Nat) (e : Int) : Nat × Nat :=
  let y := fixAt (p + 16) m e * 2 ^ p / ln2Fix (p + 16)
  let n := y / 2 ^ p
  (exp2Frac p (2 ^ p - y % 2 ^ p), n)

/-- Enclosure of 1 / (1 + e^(-|a|)), or of 1 minus it for a negative a (09 R184). -/
def sigmEncl (p : Nat) (neg : Bool) (m : Nat) (e : Int) : Encl :=
  let (mm, n) := expNeg p m e
  let sh := p + n + 1
  let one := 2 ^ sh
  let err := 64 * p
  let num := if neg then mm else one
  encl false (num * 2 ^ p * (if neg then 2 ^ n else 1) / (one + mm)) err (-(p : Int) - (if neg then n else 0))

/-- Enclosure of tanh |a| = (1 - E) / (1 + E) with E = e^(-2|a|) (09 R184). -/
def tanhEncl (p : Nat) (neg : Bool) (m : Nat) (e : Int) : Encl :=
  let (mm, n) := expNeg p m (e + 1)
  let one := 2 ^ (p + n + 1)
  encl neg ((one - mm) * 2 ^ p / (one + mm)) (64 * p) (-(p : Int))

/-- Round an enclosed irrational value: at p bits, then at twice as many, `fuel` times (log 10). -/
def roundEncl (f : Fmt) (g : Nat → Encl) : Nat → Nat → Nat × Flags
  | 0, p => roundTo f .rne (stickyFV (g p).neg (g p).lo true (g p).e)
  | fuel + 1, p =>
    let x := g p
    let a := roundTo f .rne (stickyFV x.neg x.lo true x.e)
    let b := roundTo f .rne (stickyFV x.neg (x.hi - 1) true x.e)
    if a = b ∧ x.lo ≠ 0 then a else roundEncl f g fuel (2 * p)

/-- |m × 2^e| ≥ 2^k. -/
def atLeast (m : Nat) (e : Int) (k : Int) : Bool := decide (k ≤ (Nat.log2 m : Int) + e)

/-- Whether m × 2^e is an integer. -/
def isInteger (m : Nat) (e : Int) : Bool := decide (0 ≤ e) || m % 2 ^ (-e).toNat == 0

/-- VRCP (09 R184, R185). -/
def rcp (f : Fmt) : FV → Nat × Flags
  | .nan => roundTo f .rne .nan
  | .inf n => roundTo f .rne (.fin n 0 0)
  | .fin n m e => roundTo f .rne (if m = 0 then .inf n else rcpFV n m e)

/-- VRSQ. -/
def rsq (f : Fmt) : FV → Nat × Flags
  | .nan => roundTo f .rne .nan
  | .inf n => if n then (f.canon, flNV) else roundTo f .rne (.fin false 0 0)
  | .fin n m e =>
    if m = 0 then roundTo f .rne (.inf n)
    else if n then (f.canon, flNV)
    else roundTo f .rne (rsqFV m e)

/-- VSQRT, in the instruction's mode. -/
def sqrt (f : Fmt) (mode : RMode) : FV → Nat × Flags
  | .nan => roundTo f mode .nan
  | .inf n => if n then (f.canon, flNV) else roundTo f mode (.inf false)
  | .fin n m e =>
    if m = 0 then roundTo f mode (.fin n 0 0)
    else if n then (f.canon, flNV)
    else roundTo f mode (sqrtFV m e)

/-- VEXP2: an integer operand is exact; one beyond the format's range rounds as any value there. -/
def exp2 (f : Fmt) : FV → Nat × Flags
  | .nan => roundTo f .rne .nan
  | .inf n => roundTo f .rne (if n then .fin false 0 0 else .inf false)
  | .fin n m e =>
    if m = 0 then roundTo f .rne (.fin false 1 0)
    else if atLeast m e 9 then roundTo f .rne (.fin false 3 (if n then -2000 else 2000))
    else if isInteger m e then
      let i := fixAt 0 m e
      roundTo f .rne (.fin false 1 (if n then -(i : Int) else i))
    else roundEncl f (fun p => exp2Encl p n m e) 5 256

/-- VLOG2. -/
def log2 (f : Fmt) : FV → Nat × Flags
  | .nan => roundTo f .rne .nan
  | .inf n => if n then (f.canon, flNV) else roundTo f .rne (.inf false)
  | .fin n m e =>
    if m = 0 then roundTo f .rne (.inf true)
    else if n then (f.canon, flNV)
    else if m = 2 ^ Nat.log2 m then roundTo f .rne (ofInt ((Nat.log2 m : Int) + e))
    else roundEncl f (fun p => log2Encl p m e) 5 256

/-- VSIGM: beyond 2^10 the function rounds as it does there. -/
def sigm (f : Fmt) : FV → Nat × Flags
  | .nan => roundTo f .rne .nan
  | .inf n => roundTo f .rne (if n then .fin false 0 0 else .fin false 1 0)
  | .fin n m e =>
    if m = 0 then roundTo f .rne (.fin false 1 (-1))
    else if atLeast m e 10 then roundTo f .rne (if n then .fin false 3 (-2000) else .fin false (2 ^ 300 - 1) (-300))
    else roundEncl f (fun p => sigmEncl p n m e) 5 256

/-- VTANH: beyond 2^7 the function rounds as just below 1. -/
def tanh (f : Fmt) : FV → Nat × Flags
  | .nan => roundTo f .rne .nan
  | .inf n => roundTo f .rne (.fin n 1 0)
  | .fin n m e =>
    if m = 0 then roundTo f .rne (.fin n 0 0)
    else if atLeast m e 7 then roundTo f .rne (.fin n (2 ^ 300 - 1) (-300))
    else roundEncl f (fun p => tanhEncl p n m e) 5 256

end Sys2Proof.Machine
end

