-- ==== Sys2Proof/Machine/Vector.lean ====
section
/-! DEFINITION. Vector.lean: floating arithmetic, integer and logic of the vector slots VA and VB (09 R177 to R186, R195 to
R197). A result is computed element by element under the predicate of its lane and queued with its latency (07 R135). -/

namespace Sys2Proof.Machine

/-- Element i of width w of a vector (04 R57). -/
def elemAt (w : Nat) (v : Vec) (i : Nat) : Nat := v.toNat / 2 ^ (w * i) % 2 ^ w

/-- The number whose digits of w bits are given, lowest first. -/
def digitsOf (w : Nat) : List Nat → Nat
  | [] => 0
  | d :: ds => d % 2 ^ w + 2 ^ w * digitsOf w ds

/-- The vector of elements of width w. -/
def packElems (w : Nat) (ds : List Nat) : Vec := BitVec.ofNat 1024 (digitsOf w ds)

/-- What is written of an element: bits [7:6] of a T6 container are zero (04 R57). -/
def writtenElem (t : ElemType) (x : Nat) : Nat := if t = .t6 then x % 64 else x

/-- Elements of width w under a lane predicate: a disabled lane keeps what the destination held and raises no flag (07 R143,
09 R178). -/
def mapElems (w : Nat) (p : BitVec 32) (old : Vec) (f : Nat → Nat × Flags) : Vec × Flags :=
  let rs := (upFrom 0 (1024 / w)).map (fun i => if p.getLsbD (i * w / 32) then f i else (elemAt w old i, 0))
  (packElems w (rs.map Prod.fst), flOr (rs.map Prod.snd))

/-- What a vector destination held at issue, for its disabled lanes; of a dead register that is undefined (06 R119, log 7). -/
def State.oldV (s : State) (ix n : Nat) : Vec := if s.me.dead.contains (codeV n) then Config.freeVec (s.freeIx ix) else s.me.vreg n
/-- The same of a predicate. -/
def State.oldP (s : State) (ix n : Nat) : BitVec 32 :=
  if s.me.dead.contains (codeP n) then Config.freePred (s.freeIx ix) else s.me.preg n

/-- Deliver a vector result to D and K2 or K3, with its flags, and queue the marks of its sources (09 R177). -/
def State.giveV (s : State) (h : VHead) (lat : Nat) (dying : List Nat) (r : Vec × Flags) : State :=
  s.upMe (fun k => (k.kill dying).deliver lat (destV h.d h.wbs) (some (vLatch h.side)) r.1 r.2)

/-- A result of one source under the predicate. -/
def vUn (h : VHead) (lat : Nat) (a : VSrc) (w : Nat) (f : Vec → Nat → Nat × Flags) (s : State) : Except Stop State := do
  let x ← s.rdVSrc (vIx h.side + 1) a
  let p ← s.rdP (vIx h.side + 3) h.p.toNat
  .ok (s.giveV h lat (vDying a) (mapElems w p (s.oldV (vIx h.side) h.d.toNat) (f x)))

/-- A result of two sources under the predicate. -/
def vBin (h : VHead) (lat : Nat) (a b : VSrc) (w : Nat) (f : Vec → Vec → Nat → Nat × Flags) (s : State) : Except Stop State := do
  let x ← s.rdVSrc (vIx h.side + 1) a
  let y ← s.rdVSrc (vIx h.side + 2) b
  let p ← s.rdP (vIx h.side + 3) h.p.toNat
  .ok (s.giveV h lat (vDying a ++ vDying b) (mapElems w p (s.oldV (vIx h.side) h.d.toNat) (f x y)))

/-- A result of two sources and the destination, which is read first (09 R177, 06 R457); the lane predicate is read last (log 103). -/
def vTri (h : VHead) (lat : Nat) (a b : VSrc) (w : Nat) (f : Vec → Vec → Vec → Nat → Nat × Flags) (s : State) :
    Except Stop State := do
  let d ← s.rdV (vIx h.side) h.d.toNat
  let x ← s.rdVSrc (vIx h.side + 1) a
  let y ← s.rdVSrc (vIx h.side + 2) b
  let p ← s.rdP (vIx h.side + 3) h.p.toNat
  .ok (s.giveV h lat (vDying a ++ vDying b) (mapElems w p d (f d x y)))

/-- The binary format of a floating type; the well-formed types of the arithmetic have one. -/
def fmtD (t : ElemType) : Fmt := (fmtOf t).getD fmt32

/-- One rounding of an exact value, with its flags and NF (09 R178, R181). -/
def roundArith (t : ElemType) (mode : RMode) (x : FV × Flags) : Nat × Flags :=
  let r := roundTo (fmtD t) mode x.1
  (r.1, x.2 ||| r.2 ||| nfOf t r.1)

/-- The exact operand i of a source. -/
def operand (t : ElemType) (v : Vec) (i : Nat) : FV := dec t (elemAt t.width v i)

/-- A packed floating operation on two operands (09 R181). -/
def vFloat2 (o : VOpR) (f : FV → FV → FV × Flags) (s : State) : Except Stop State :=
  vBin o.toVHead 4 o.a o.b o.ty.width (fun x y i => roundArith o.ty o.m (f (operand o.ty x i) (operand o.ty y i))) s

/-- A packed floating operation on two operands and the destination (09 R181). -/
def vFloat3 (o : VOpR) (f : FV → FV → FV → FV × Flags) (s : State) : Except Stop State :=
  vTri o.toVHead 4 o.a o.b o.ty.width
    (fun d x y i => roundArith o.ty o.m (f (operand o.ty x i) (operand o.ty y i) (operand o.ty d i))) s

/-- VADD (09 R181). -/
def effVadd (o : VOpR) (s : State) : Except Stop State := vFloat2 o (fun a b => a.add b) s
/-- VSUB. -/
def effVsub (o : VOpR) (s : State) : Except Stop State := vFloat2 o (fun a b => a.add b.neg) s
/-- VMUL. -/
def effVmul (o : VOpR) (s : State) : Except Stop State := vFloat2 o (fun a b => a.mul b) s
/-- VFMA. -/
def effVfma (o : VOpR) (s : State) : Except Stop State := vFloat3 o (fun a b d => FV.fma a b d) s
/-- VFMS. -/
def effVfms (o : VOpR) (s : State) : Except Stop State := vFloat3 o (fun a b d => FV.fma a b d.neg) s
/-- VFNMA. -/
def effVfnma (o : VOpR) (s : State) : Except Stop State := vFloat3 o (fun a b d => FV.fma a.neg b d) s

/-- The lesser or greater of two encodings by 09 R182, with its NaN variant; Canon(t) for a NaN result. -/
def pickFloat (t : ElemType) (greater nan : Bool) (x y : Nat) : Nat :=
  let a := dec t x
  let b := dec t y
  match a.isNan, b.isNan with
  | true, true => canon t
  | true, false => if nan then canon t else y
  | false, true => if nan then canon t else x
  | false, false => if (if greater then a.ltOrd b else b.ltOrd a) then y else x

/-- VMIN and VMAX (09 R182). -/
def vPick (o : VOp2) (greater nan : Bool) (s : State) : Except Stop State :=
  vBin o.toVHead 4 o.a o.b o.ty.width (fun x y i =>
    let r := pickFloat o.ty greater nan (elemAt o.ty.width x i) (elemAt o.ty.width y i)
    (r, nfOf o.ty r)) s
/-- VMIN. -/
def effVmin (o : VOp2) (nan : Bool) (s : State) : Except Stop State := vPick o false nan s
/-- VMAX. -/
def effVmax (o : VOp2) (nan : Bool) (s : State) : Except Stop State := vPick o true nan s

/-- A packed operation on the encodings of one floating source; a NaN gives Canon(t) (09 R183). -/
def vSign (o : VOp1) (f : Nat → Nat) (s : State) : Except Stop State :=
  vUn o.toVHead 4 o.a o.ty.width (fun x i =>
    let e := elemAt o.ty.width x i
    let r := if (dec o.ty e).isNan then canon o.ty else f e
    (r, nfOf o.ty r)) s
/-- VABS (09 R183). -/
def effVabs (o : VOp1) (s : State) : Except Stop State := vSign o (fun e => e % 2 ^ (o.ty.width - 1)) s
/-- VNEG (09 R183). -/
def effVneg (o : VOp1) (s : State) : Except Stop State := vSign o (fun e => (e + 2 ^ (o.ty.width - 1)) % 2 ^ o.ty.width) s

/-- A correctly rounded function of one source (09 R184). -/
def vTrans (o : VOp1) (f : FV → Nat × Flags) (s : State) : Except Stop State :=
  vUn o.toVHead 8 o.a o.ty.width (fun x i =>
    let r := f (operand o.ty x i)
    (r.1, r.2 ||| nfOf o.ty r.1)) s
/-- VRCP (09 R184, R185). -/
def effVrcp (o : VOp1) (s : State) : Except Stop State := vTrans o (rcp (fmtD o.ty)) s
/-- VRSQ. -/
def effVrsq (o : VOp1) (s : State) : Except Stop State := vTrans o (rsq (fmtD o.ty)) s
/-- VSQRT. -/
def effVsqrt (o : VOp1) (m : RMode) (s : State) : Except Stop State := vTrans o (sqrt (fmtD o.ty) m) s
/-- VEXP2. -/
def effVexp2 (o : VOp1) (s : State) : Except Stop State := vTrans o (exp2 (fmtD o.ty)) s
/-- VLOG2. -/
def effVlog2 (o : VOp1) (s : State) : Except Stop State := vTrans o (log2 (fmtD o.ty)) s
/-- VSIGM. -/
def effVsigm (o : VOp1) (s : State) : Except Stop State := vTrans o (sigm (fmtD o.ty)) s
/-- VTANH. -/
def effVtanh (o : VOp1) (s : State) : Except Stop State := vTrans o (tanh (fmtD o.ty)) s

/-- Class mask of an element (09 R186). -/
def fclass (t : ElemType) (e : Nat) : Nat :=
  let ex := fld e (fmtD t).fbits ((fmtD t).w - 1 - (fmtD t).fbits)
  match dec t e with
  | .nan => 256
  | .inf n => if n then 1 else 128
  | .fin n m _ => if m = 0 then (if n then 8 else 16) else if ex = 0 then (if n then 4 else 32) else if n then 2 else 64
/-- VFCLS (09 R186). -/
def effVfcls (o : VOp1) (s : State) : Except Stop State :=
  vUn o.toVHead 4 o.a o.ty.width (fun x i => (fclass o.ty (elemAt o.ty.width x i), 0)) s

/-- Narrow an exact integer by its variant (09 R195). -/
def narrowInt (t : ElemType) (v : IVar) (x : Int) : Nat :=
  wrapN t.width (match v with
    | .wrap => x
    | .sat => clampInt t x
    | .hi => x / (2 ^ t.width : Int))
/-- An integer operation on two operands (09 R195). -/
def vInt2 (o : VOp2) (lat : Nat) (v : IVar) (f : Int → Int → Int) (s : State) : Except Stop State :=
  vBin o.toVHead lat o.a o.b o.ty.width
    (fun x y i => (narrowInt o.ty v (f (intOf o.ty (elemAt o.ty.width x i)) (intOf o.ty (elemAt o.ty.width y i))), 0)) s
/-- VIADD (09 R195). -/
def effViadd (o : VOp2) (v : IVar) (s : State) : Except Stop State := vInt2 o 2 v (fun a b => a + b) s
/-- VISUB. -/
def effVisub (o : VOp2) (v : IVar) (s : State) : Except Stop State := vInt2 o 2 v (fun a b => a - b) s
/-- VIMUL. -/
def effVimul (o : VOp2) (v : IVar) (s : State) : Except Stop State := vInt2 o 4 v (fun a b => a * b) s
/-- VIMAC. -/
def effVimac (o : VOp2) (v : IVar) (s : State) : Except Stop State :=
  vTri o.toVHead 4 o.a o.b o.ty.width (fun d x y i => (narrowInt o.ty v (intOf o.ty (elemAt o.ty.width d i)
    + intOf o.ty (elemAt o.ty.width x i) * intOf o.ty (elemAt o.ty.width y i)), 0)) s

/-- A bitwise operation on whole lanes (09 R196). -/
def vLogic (h : VHead) (a b : VSrc) (f : Nat → Nat → Nat) (s : State) : Except Stop State :=
  vBin h 2 a b 32 (fun x y i => (f (elemAt 32 x i) (elemAt 32 y i), 0)) s
/-- VAND (09 R196). -/
def effVand (h : VHead) (a b : VSrc) (s : State) : Except Stop State := vLogic h a b (fun x y => x &&& y) s
/-- VOR. -/
def effVor (h : VHead) (a b : VSrc) (s : State) : Except Stop State := vLogic h a b (fun x y => x ||| y) s
/-- VXOR. -/
def effVxor (h : VHead) (a b : VSrc) (s : State) : Except Stop State := vLogic h a b (fun x y => x ^^^ y) s

/-- A shift: the amounts per element, or one from a scalar, each modulo the width (09 R196). -/
def vShift (o : VOp1) (amt : VShAmt) (f : Nat → Nat → Nat) (s : State) : Except Stop State :=
  let w := o.ty.width
  match amt with
  | .vec b => vBin o.toVHead 2 o.a b w (fun x y i => (f (elemAt w x i) (elemAt w y i % w), 0)) s
  | .scal b => do
    let x ← s.rdVSrc (vIx o.side + 1) o.a
    let y ← s.rdSSrc (vIx o.side + 2) b
    let p ← s.rdP (vIx o.side + 3) o.p.toNat
    .ok (s.giveV o.toVHead 2 (vDying o.a ++ sDying b)
      (mapElems w p (s.oldV (vIx o.side) o.d.toNat) (fun i => (f (elemAt w x i) (y.toNat % w), 0))))
/-- VSHL (09 R196). -/
def effVshl (o : VOp1) (amt : VShAmt) (s : State) : Except Stop State := vShift o amt (fun e n => e * 2 ^ n % 2 ^ o.ty.width) s
/-- VSHR. -/
def effVshr (o : VOp1) (amt : VShAmt) (s : State) : Except Stop State := vShift o amt (fun e n => e / 2 ^ n) s
/-- VSHRA: signed whatever the type is. -/
def effVshra (o : VOp1) (amt : VShAmt) (s : State) : Except Stop State :=
  vShift o amt (fun e n => wrapN o.ty.width (sx e o.ty.width / (2 ^ n : Int))) s

/-- The lesser or greater element as integers (09 R197). -/
def pickInt (t : ElemType) (greater : Bool) (x y : Nat) : Nat :=
  if (if greater then decide (intOf t x < intOf t y) else decide (intOf t y < intOf t x)) then y else x
/-- VIMIN (09 R197). -/
def effVimin (o : VOp2) (s : State) : Except Stop State :=
  vBin o.toVHead 2 o.a o.b o.ty.width (fun x y i => (pickInt o.ty false (elemAt o.ty.width x i) (elemAt o.ty.width y i), 0)) s
/-- VIMAX (09 R197). -/
def effVimax (o : VOp2) (s : State) : Except Stop State :=
  vBin o.toVHead 2 o.a o.b o.ty.width (fun x y i => (pickInt o.ty true (elemAt o.ty.width x i) (elemAt o.ty.width y i), 0)) s

/-- VADD, issued. -/
def execVadd (o : VOpR) (s : State) : Host.Outcome State Fault Refusal := runSlot (effVadd o s) s
/-- VSUB, issued. -/
def execVsub (o : VOpR) (s : State) : Host.Outcome State Fault Refusal := runSlot (effVsub o s) s
/-- VMUL, issued. -/
def execVmul (o : VOpR) (s : State) : Host.Outcome State Fault Refusal := runSlot (effVmul o s) s
/-- VFMA, issued. -/
def execVfma (o : VOpR) (s : State) : Host.Outcome State Fault Refusal := runSlot (effVfma o s) s
/-- VFMS, issued. -/
def execVfms (o : VOpR) (s : State) : Host.Outcome State Fault Refusal := runSlot (effVfms o s) s
/-- VFNMA, issued. -/
def execVfnma (o : VOpR) (s : State) : Host.Outcome State Fault Refusal := runSlot (effVfnma o s) s
/-- VMIN, issued. -/
def execVmin (o : VOp2) (nan : Bool) (s : State) : Host.Outcome State Fault Refusal := runSlot (effVmin o nan s) s
/-- VMAX, issued. -/
def execVmax (o : VOp2) (nan : Bool) (s : State) : Host.Outcome State Fault Refusal := runSlot (effVmax o nan s) s
/-- VABS, issued. -/
def execVabs (o : VOp1) (s : State) : Host.Outcome State Fault Refusal := runSlot (effVabs o s) s
/-- VNEG, issued. -/
def execVneg (o : VOp1) (s : State) : Host.Outcome State Fault Refusal := runSlot (effVneg o s) s
/-- VRCP, issued. -/
def execVrcp (o : VOp1) (s : State) : Host.Outcome State Fault Refusal := runSlot (effVrcp o s) s
/-- VRSQ, issued. -/
def execVrsq (o : VOp1) (s : State) : Host.Outcome State Fault Refusal := runSlot (effVrsq o s) s
/-- VSQRT, issued. -/
def execVsqrt (o : VOp1) (m : RMode) (s : State) : Host.Outcome State Fault Refusal := runSlot (effVsqrt o m s) s
/-- VEXP2, issued. -/
def execVexp2 (o : VOp1) (s : State) : Host.Outcome State Fault Refusal := runSlot (effVexp2 o s) s
/-- VLOG2, issued. -/
def execVlog2 (o : VOp1) (s : State) : Host.Outcome State Fault Refusal := runSlot (effVlog2 o s) s
/-- VSIGM, issued. -/
def execVsigm (o : VOp1) (s : State) : Host.Outcome State Fault Refusal := runSlot (effVsigm o s) s
/-- VTANH, issued. -/
def execVtanh (o : VOp1) (s : State) : Host.Outcome State Fault Refusal := runSlot (effVtanh o s) s
/-- VFCLS, issued. -/
def execVfcls (o : VOp1) (s : State) : Host.Outcome State Fault Refusal := runSlot (effVfcls o s) s
/-- VIADD, issued. -/
def execViadd (o : VOp2) (v : IVar) (s : State) : Host.Outcome State Fault Refusal := runSlot (effViadd o v s) s
/-- VISUB, issued. -/
def execVisub (o : VOp2) (v : IVar) (s : State) : Host.Outcome State Fault Refusal := runSlot (effVisub o v s) s
/-- VIMUL, issued. -/
def execVimul (o : VOp2) (v : IVar) (s : State) : Host.Outcome State Fault Refusal := runSlot (effVimul o v s) s
/-- VIMAC, issued. -/
def execVimac (o : VOp2) (v : IVar) (s : State) : Host.Outcome State Fault Refusal := runSlot (effVimac o v s) s
/-- VAND, issued. -/
def execVand (h : VHead) (a b : VSrc) (s : State) : Host.Outcome State Fault Refusal := runSlot (effVand h a b s) s
/-- VOR, issued. -/
def execVor (h : VHead) (a b : VSrc) (s : State) : Host.Outcome State Fault Refusal := runSlot (effVor h a b s) s
/-- VXOR, issued. -/
def execVxor (h : VHead) (a b : VSrc) (s : State) : Host.Outcome State Fault Refusal := runSlot (effVxor h a b s) s
/-- VSHL, issued. -/
def execVshl (o : VOp1) (amt : VShAmt) (s : State) : Host.Outcome State Fault Refusal := runSlot (effVshl o amt s) s
/-- VSHR, issued. -/
def execVshr (o : VOp1) (amt : VShAmt) (s : State) : Host.Outcome State Fault Refusal := runSlot (effVshr o amt s) s
/-- VSHRA, issued. -/
def execVshra (o : VOp1) (amt : VShAmt) (s : State) : Host.Outcome State Fault Refusal := runSlot (effVshra o amt s) s
/-- VIMIN, issued. -/
def execVimin (o : VOp2) (s : State) : Host.Outcome State Fault Refusal := runSlot (effVimin o s) s
/-- VIMAX, issued. -/
def execVimax (o : VOp2) (s : State) : Host.Outcome State Fault Refusal := runSlot (effVimax o s) s

end Sys2Proof.Machine
end

