-- ==== Sys2Proof/Machine/VectorConv.lean ====
section
/-! DEFINITION. VectorConv.lean: conversion, quantisation and random bits of the vector slots (09 R187 to R194). -/

namespace Sys2Proof.Machine

/-- Whether a type is a floating or coded format, whose results can be NF (09 R178). -/
def isReal (t : ElemType) : Bool :=
  match t with
  | .fp32 | .bf16 | .fp16 | .e4m3 | .e5m2 | .t8 | .t6 => true
  | _ => false

/-- NF where the result type is a floating format. -/
def nfReal (t : ElemType) (b : Nat) : Flags := if isReal t then nfOf t b else 0

/-- Convert one element (09 R187). -/
def convertElem (src dst : ElemType) (mode : RMode) (e : Nat) : Nat × Flags :=
  let r := if isReal dst then roundElem dst mode (dec src e) else convertInt dst mode (dec src e)
  (r.1, r.2 ||| nfReal dst r.1)
/-- VCVT (09 R187): packed when the two widths are equal, spread otherwise. -/
def effVcvt (o : VOp1) (src : ElemType) (m : RMode) (s : State) : Except Stop State :=
  let w := if src.width = o.ty.width then src.width else 32
  vUn o.toVHead 4 o.a w (fun x i => convertElem src o.ty m (elemAt w x i % 2 ^ src.width)) s

/-- Quantise one FP32 element under scale byte c (09 R188). -/
def quantElem (t : ElemType) (mode : RMode) (a c : Nat) : Nat × Flags :=
  let r := if c = 255 then (canon t, 0) else roundElem t mode ((dec .fp32 a).scale (127 - (c : Int)))
  (r.1, r.2 ||| nfOf t r.1)
/-- VQNT (09 R188). -/
def effVqnt (o : VOpR) (s : State) : Except Stop State :=
  vBin o.toVHead 4 o.a o.b 32 (fun x y i => quantElem o.ty o.m (elemAt 32 x i) (elemAt 32 y i % 256)) s

/-- Dequantise one element under scale byte c (09 R188). -/
def dequantElem (t : ElemType) (mode : RMode) (a c : Nat) : Nat × Flags :=
  let r := if c = 255 then (fmt32.canon, 0) else roundTo fmt32 mode ((dec t a).scale ((c : Int) - 127))
  (r.1, r.2 ||| nfOf .fp32 r.1)
/-- VDQNT (09 R188). -/
def effVdqnt (o : VOpR) (s : State) : Except Stop State :=
  vBin o.toVHead 4 o.a o.b 32 (fun x y i => dequantElem o.ty o.m (elemAt 32 x i) (elemAt 32 y i % 256)) s

/-- Rotate a 32-bit number right (09 R190). -/
def rotr32 (x n : Nat) : Nat := x / 2 ^ n + x * 2 ^ (32 - n) % 2 ^ 32
/-- One round of MIX (09 R190). -/
def mixRound (k x : Nat) (c : Nat × Nat) : Nat :=
  let x := x * c.1 % 2 ^ 32 ^^^ k
  let x := x ^^^ x / 2 ^ 16
  rotr32 x c.2
/-- MIX (09 R190). -/
def mix (s0 s1 t i : Nat) : Nat :=
  [(0xA54FF53B, 5), (0x6C8E9CF5, 11), (0xD1B54A33, 17), (0x3C6EF37D, 23)].foldl
    (mixRound (s1 ^^^ (t * 2 ^ 20) ^^^ 0x9B1D4E27)) (s0 ^^^ i ^^^ 0x2F6AD3C9)
/-- The random word of an index on a core (09 R190). -/
def Core.mixAt (k : Core) (i : Nat) : Nat := mix k.seed0.toNat k.seed1.toNat k.ctag.toNat (i % 2 ^ 32)

/-- Stochastic rounding of a finite nonzero m × 2^e under the random word r (09 R191): magnitude code and flags. -/
def srndFin (f : Fmt) (r : Nat) (neg : Bool) (m : Nat) (e : Int) : Nat × Flags :=
  let l : Int := (Nat.log2 m : Int) + e
  let q : Int := (if f.emin ≤ l then l else f.emin) - f.prec + 1
  let n := fixAt 0 m (e - q)
  -- lo = loM × 2^loE and hi = hiM × 2^hiE
  let past := overMax f n q
  let (lm, le) := if past then (f.maxM, f.maxE) else (n, q)
  let exact := cmpMag lm le m e == .eq
  let (hm, he) := if past || overMax f (n + 1) q then (1, f.emax + 1) else (n + 1, q)
  if exact then (encFin f neg lm le, 0)
  else
    let b := min (min le he) e
    let at_ (a : Nat) (x : Int) : Nat := a * 2 ^ (x - b).toNat
    let up := decide (r * (at_ hm he - at_ lm le) < (at_ m e - at_ lm le) * 2 ^ 32)
    let fl := flNX ||| flIf (decide (l < f.emin)) flUF
    if up then
      if he = f.emax + 1 ∧ hm = 1 then (if f.saturates then encMax f neg else encInf f neg, fl ||| flOF)
      else (encFin f neg hm he, fl)
    else (encFin f neg lm le, fl)
/-- Stochastic rounding of one FP32 element (09 R191). -/
def srndElem (t : ElemType) (r a : Nat) : Nat × Flags :=
  let f := fmtD t
  let x := match dec .fp32 a with
    | .nan => (f.canon, 0)
    | .inf n => if f.hasInf then (encInf f n, 0) else (f.canon, flNV)
    | .fin n m e => if m = 0 then (encFin f n 0 (f.emin - f.fbits), 0) else srndFin f r n m e
  (x.1, x.2 ||| nfOf t x.1)
/-- VSRND (09 R191). -/
def effVsrnd (o : VOpS) (s : State) : Except Stop State := do
  let x ← s.rdVSrc (vIx o.side + 1) o.a
  let b ← s.rdSSrc (vIx o.side + 2) o.b
  let p ← s.rdP (vIx o.side + 3) o.p.toNat
  .ok (s.giveV o.toVHead 4 (vDying o.a ++ sDying o.b) (mapElems 32 p (s.oldV (vIx o.side) o.d.toNat)
    (fun l => srndElem o.ty (s.me.mixAt (b.toNat + l)) (elemAt 32 x l))))

/-- Greatest magnitude of the FP32 lanes of a mask, as FP32 bits (09 R189). -/
def amaxBits (x : Vec) (pm : BitVec 32) : Nat :=
  let es := ((upFrom 0 32).filter (fun l => pm.getLsbD l)).map (elemAt 32 x)
  if es.any (fun e => (dec .fp32 e).isNan) then fmt32.canon else es.foldl (fun a e => max a (e % 2 ^ 31)) 0
/-- VAMAX (09 R189). -/
def effVamax (o : VOp1) (abs : Bool) (pm : BitVec 4) (s : State) : Except Stop State := do
  let x ← s.rdVSrc (vIx o.side + 1) o.a
  let m ← s.rdP (vIx o.side + 2) pm.toNat
  let p ← s.rdP (vIx o.side + 3) o.p.toNat
  let a := amaxBits x m
  .ok (s.giveV o.toVHead 4 (vDying o.a) (mapElems 32 p (s.oldV (vIx o.side) o.d.toNat)
    (fun _ => if abs then (a, nfOf .fp32 a) else (scaleByte o.ty (dec .fp32 a), 0))))

/-- The code-table check of VMOMQ and VMOMD (09 R193). -/
def Core.tableCheck (k : Core) : Rd Unit :=
  if k.ctValid then .ok () else illop (if k.ctFail = 0 then 0x200 else 0x100 + (k.ctFail - 1))
/-- Entry j of the code table. -/
def Core.ctEntry (k : Core) (j : Nat) : Nat := ((look k.ct j).getD 0).toNat
/-- Magnitude of CT[j] × A - x, exact (09 R194). -/
def momDist (k : Core) (a x : FV) (j : Nat) : Nat × Int :=
  match ((dec .fp32 (k.ctEntry j)).mul a).1.add x.neg with
  | (.fin _ m e, _) => (m, e)
  | _ => (0, 0)
/-- The code of least distance among j, …, j + n - 1: on a tie the even one, or the lowest (09 R194). -/
def momBest (d : Nat → Nat × Int) (even : Bool) : Nat → Nat → Nat → Nat
  | _, 0, best => best
  | j, n + 1, best =>
    let b := match cmpMag (d j).1 (d j).2 (d best).1 (d best).2 with
      | .lt => j
      | .eq => if even && j % 2 == 0 then j else best
      | .gt => best
    momBest d even (j + 1) n b
/-- Encode one lane (09 R194). -/
def momCode (k : Core) (xb ab : Nat) : Nat × Flags :=
  let x := dec .fp32 xb
  let a := dec .fp32 ab
  let good := match a with
    | .fin neg m _ => !neg && m != 0
    | _ => false
  if x.nonFinite || !good then (momBest (momDist k (.fin false 1 0) (.fin false 0 0)) false 1 255 0, flNV)
  else
    let c := momBest (momDist k a x) true 1 255 0
    (c, flIf ((momDist k a x c).1 != 0) flNX)
/-- VMOMQ (09 R194). Its sources are read, with their traps, before the table is looked at (log 104). -/
def effVmomq (h : VHead) (a b : VSrc) (s : State) : Except Stop State := do
  let x ← s.rdVSrc (vIx h.side + 1) a
  let y ← s.rdVSrc (vIx h.side + 2) b
  let p ← s.rdP (vIx h.side + 3) h.p.toNat
  s.me.tableCheck
  .ok (s.giveV h 4 (vDying a ++ vDying b) (mapElems 32 p (s.oldV (vIx h.side) h.d.toNat)
    (fun l => momCode s.me (elemAt 32 x l) (elemAt 32 y l))))
/-- VMOMD (09 R194). Its sources are read, with their traps, before the table is looked at (log 104). -/
def effVmomd (h : VHead) (m : RMode) (a b : VSrc) (s : State) : Except Stop State := do
  let x ← s.rdVSrc (vIx h.side + 1) a
  let y ← s.rdVSrc (vIx h.side + 2) b
  let p ← s.rdP (vIx h.side + 3) h.p.toNat
  s.me.tableCheck
  .ok (s.giveV h 4 (vDying a ++ vDying b) (mapElems 32 p (s.oldV (vIx h.side) h.d.toNat)
    (fun l => roundArith .fp32 m ((dec .fp32 (s.me.ctEntry (elemAt 32 x l % 256))).mul (dec .fp32 (elemAt 32 y l))))))
/-- VRAND (09 R192). -/
def effVrand (h : VHead) (a : SSrc) (s : State) : Except Stop State := do
  let b ← s.rdSSrc (vIx h.side + 1) a
  let p ← s.rdP (vIx h.side + 3) h.p.toNat
  .ok (s.giveV h 4 (sDying a) (mapElems 32 p (s.oldV (vIx h.side) h.d.toNat) (fun l => (s.me.mixAt (b.toNat + l), 0))))

/-- VCVT, issued. -/
def execVcvt (o : VOp1) (src : ElemType) (m : RMode) (s : State) : Host.Outcome State Fault Refusal := runSlot (effVcvt o src m s) s
/-- VQNT, issued. -/
def execVqnt (o : VOpR) (s : State) : Host.Outcome State Fault Refusal := runSlot (effVqnt o s) s
/-- VDQNT, issued. -/
def execVdqnt (o : VOpR) (s : State) : Host.Outcome State Fault Refusal := runSlot (effVdqnt o s) s
/-- VSRND, issued. -/
def execVsrnd (o : VOpS) (s : State) : Host.Outcome State Fault Refusal := runSlot (effVsrnd o s) s
/-- VAMAX, issued. -/
def execVamax (o : VOp1) (abs : Bool) (pm : BitVec 4) (s : State) : Host.Outcome State Fault Refusal := runSlot (effVamax o abs pm s) s
/-- VMOMQ, issued. -/
def execVmomq (h : VHead) (a b : VSrc) (s : State) : Host.Outcome State Fault Refusal := runSlot (effVmomq h a b s) s
/-- VMOMD, issued. -/
def execVmomd (h : VHead) (m : RMode) (a b : VSrc) (s : State) : Host.Outcome State Fault Refusal := runSlot (effVmomd h m a b s) s
/-- VRAND, issued. -/
def execVrand (h : VHead) (a : SSrc) (s : State) : Host.Outcome State Fault Refusal := runSlot (effVrand h a s) s

end Sys2Proof.Machine
end

