-- ==== Sys2Proof/Machine/VectorMove.lean ====
section
/-! DEFINITION. VectorMove.lean: comparison, selection and movement, reductions and predicates (09 R198 to R205). -/

namespace Sys2Proof.Machine

/-- Deliver a predicate result (09 R177, R205): a disabled bit keeps what the destination held. -/
def State.giveP (s : State) (side : Side) (d : BitVec 4) (wbs : Bool) (lat : Nat) (p old : BitVec 32) (dying : List Nat)
    (r : BitVec 32) : State :=
  s.upMe (fun k => (k.kill dying).deliver lat (destP d wbs) (some (vLatch side))
    (((r &&& p) ||| (old &&& ~~~p)).setWidth 1024) 0)

/-- The condition of VCMP on one lane (09 R198). -/
def vcmpLane (t : ElemType) (cc : VCond) (x y : Nat) : Bool :=
  let a := dec t x
  let b := dec t y
  if a.isNan || b.isNan then cc == .ne || cc == .un
  else match cc with
    | .eq => a.eqNum b
    | .ne => !a.eqNum b
    | .lt => a.ltNum b
    | .le => a.ltNum b || a.eqNum b
    | .gt => b.ltNum a
    | .ge => b.ltNum a || a.eqNum b
    | .un => false
/-- VCMP (09 R198). -/
def effVcmp (side : Side) (p d : BitVec 4) (wbs : Bool) (ty : ElemType) (cc : VCond) (a b : VSrc) (s : State) : Except Stop State := do
  let x ← s.rdVSrc (vIx side + 1) a
  let y ← s.rdVSrc (vIx side + 2) b
  let m ← s.rdP (vIx side + 3) p.toNat
  .ok (s.giveP side d wbs 2 m (s.oldP (vIx side) d.toNat) (vDying a ++ vDying b)
    (BitVec.ofNat 32 (maskOf ((upFrom 0 32).map (fun l => vcmpLane ty cc (elemAt 32 x l) (elemAt 32 y l))))))
/-- VSEL (09 R199): P is the selector. -/
def effVsel (h : VHead) (a b : VSrc) (s : State) : Except Stop State := do
  let x ← s.rdVSrc (vIx h.side + 1) a
  let y ← s.rdVSrc (vIx h.side + 2) b
  let p ← s.rdP (vIx h.side + 3) h.p.toNat
  .ok (s.giveV h 2 (vDying a ++ vDying b)
    (packElems 32 ((upFrom 0 32).map (fun l => if p.getLsbD l then elemAt 32 x l else elemAt 32 y l)), 0))
/-- VMOV (09 R200). -/
def effVmov (h : VHead) (a : VSrc) (s : State) : Except Stop State := vUn h 2 a 32 (fun x i => (elemAt 32 x i, 0)) s
/-- VBCST (09 R200). -/
def effVbcst (h : VHead) (ty : ElemType) (a : SSrc) (s : State) : Except Stop State := do
  let x ← s.rdSSrc (vIx h.side + 1) a
  let p ← s.rdP (vIx h.side + 3) h.p.toNat
  .ok (s.giveV h 2 (sDying a) (mapElems ty.width p (s.oldV (vIx h.side) h.d.toNat)
    (fun _ => (writtenElem ty (x.toNat % 2 ^ ty.width), 0))))
/-- A movement under a scalar index (09 R200). -/
def vIndexed (o : VOpS) (f : Nat → Nat → Nat → Nat) (s : State) : Except Stop State := do
  let x ← s.rdVSrc (vIx o.side + 1) o.a
  let b ← s.rdSSrc (vIx o.side + 2) o.b
  let p ← s.rdP (vIx o.side + 3) o.p.toNat
  let w := o.ty.width
  .ok (s.giveV o.toVHead 2 (vDying o.a ++ sDying o.b) (mapElems w p (s.oldV (vIx o.side) o.d.toNat)
    (fun i => (writtenElem o.ty (elemAt w x (f (1024 / w) b.toNat i)), 0))))
/-- VSPLT (09 R200). -/
def effVsplt (o : VOpS) (s : State) : Except Stop State := vIndexed o (fun n b _ => b % n) s
/-- VROTL (09 R200). -/
def effVrotl (o : VOpS) (s : State) : Except Stop State := vIndexed o (fun n b i => (i + n - b % n) % n) s
/-- VPERM (09 R200). -/
def effVperm (h : VHead) (a b : VSrc) (s : State) : Except Stop State :=
  vBin h 2 a b 32 (fun x y i => (elemAt 32 x (elemAt 32 y i % 32), 0)) s
/-- VPACK (09 R201): a kept element is kept whole. -/
def effVpack (o : VOp1) (half : BitVec 2) (s : State) : Except Stop State := do
  let d ← s.rdV (vIx o.side) o.d.toNat
  let x ← s.rdVSrc (vIx o.side + 1) o.a
  let p ← s.rdP (vIx o.side + 3) o.p.toNat
  let w := o.ty.width
  .ok (s.giveV o.toVHead 2 (vDying o.a) (mapElems w p d (fun i =>
    (if i / 32 = half.toNat then writtenElem o.ty (elemAt 32 x (i % 32) % 2 ^ w) else elemAt w d i, 0))))
/-- Sign-extended for I types, zero-extended otherwise, to n bits (09 R201, R202); the top bits of a T6 container are ignored. -/
def extendElem (t : ElemType) (n e : Nat) : Nat := if t.signed then wrapN n (sx e t.width) else writtenElem t e
/-- VUNPK (09 R201). -/
def effVunpk (o : VOp1) (half : BitVec 2) (s : State) : Except Stop State :=
  vUn o.toVHead 2 o.a 32 (fun x l => (extendElem o.ty 32 (elemAt o.ty.width x (32 * half.toNat + l)), 0)) s
/-- VEXTR (09 R202). -/
def effVextr (side : Side) (d : BitVec 6) (wbs : Bool) (ty : ElemType) (a : VSrc) (b : SSrc) (s : State) : Except Stop State := do
  let x ← s.rdVSrc (vIx side + 1) a
  let i ← s.rdSSrc (vIx side + 2) b
  let r := BitVec.ofNat 64 (extendElem ty 64 (elemAt ty.width x (i.toNat % (1024 / ty.width))))
  .ok (s.upMe (fun k => (k.kill (vDying a ++ sDying b)).deliver 2 (destS d wbs) (some (vLatch side)) (vecOfWord r) 0))
/-- VINS (09 R202). -/
def effVins (h : VHead) (ty : ElemType) (a b : SSrc) (s : State) : Except Stop State := do
  let d ← s.rdV (vIx h.side) h.d.toNat
  let x ← s.rdSSrc (vIx h.side + 1) a
  let i ← s.rdSSrc (vIx h.side + 2) b
  let p ← s.rdP (vIx h.side + 3) h.p.toNat
  let w := ty.width
  .ok (s.giveV h 2 (sDying a ++ sDying b) (mapElems w p d (fun j =>
    (if j = i.toNat % (1024 / w) then writtenElem ty (x.toNat % 2 ^ w) else elemAt w d j, 0))))

/-- Combination of two lanes, absent or present (09 R203). -/
def combWith (f : Nat → Nat → Nat × Flags) (x y : Option Nat) : Option Nat × Flags :=
  match x, y with
  | none, y => (y, 0)
  | x, none => (x, 0)
  | some a, some b => (some (f a b).1, (f a b).2)
/-- Sum of two lanes (09 R203). -/
def sumComb (t : ElemType) (mode : RMode) (a b : Nat) : Nat × Flags :=
  if t = .fp32 then
    let x := (dec t a).add (dec t b)
    let r := roundTo fmt32 mode x.1
    (r.1, x.2 ||| r.2)
  else ((a + b) % 2 ^ 32, 0)
/-- Lesser or greater of two lanes (09 R203). -/
def pickComb (t : ElemType) (greater nan : Bool) (a b : Nat) : Nat × Flags :=
  (if t = .fp32 then pickFloat t greater nan a b else pickInt t greater a b, 0)
/-- Lanes of a mask, absent elsewhere (09 R203). -/
def laneOpts (x : Vec) (pm : BitVec 32) : List (Option Nat) :=
  (upFrom 0 32).map (fun l => if pm.getLsbD l then some (elemAt 32 x l) else none)
/-- The pairwise tree (09 R203): halves combine while levels last. -/
def redTree (f : Nat → Nat → Nat × Flags) : Nat → List (Option Nat) → Option Nat × Flags
  | 0, us => (us.head?.getD none, 0)
  | n + 1, us =>
    let h := us.length / 2
    let c := List.zipWith (combWith f) (us.take h) (us.drop h)
    let r := redTree f n (c.map Prod.fst)
    (r.1, flOr (c.map Prod.snd) ||| r.2)
/-- The lanes before some levels of a scan whose value reaches a lane that P enables (09 R178, R204). -/
def scanNeed (p : BitVec 32) : List Nat → BitVec 32
  | [] => p
  | d :: ds => scanNeed p ds ||| scanNeed p ds >>> d
/-- The levels of a scan (09 R204), with the flags of the Combs performed whose result reaches a lane that P enables: a disabled lane raises
none (07 R143, 09 R178, R203, log 105). -/
def scanLevels (f : Nat → Nat → Nat × Flags) (p : BitVec 32) : List Nat → List (Option Nat) → List (Option Nat) × Flags
  | [], us => (us, 0)
  | d :: ds, us =>
    let c := List.zipWith (combWith f) (us.take (us.length - d)) (us.drop d)
    let r := scanLevels f p ds (us.take d ++ c.map Prod.fst)
    (r.1, flOr ((c.zipIdx d).map (fun e => if (scanNeed p ds).getLsbD e.2 then e.1.2 else 0)) ||| r.2)
/-- A delivered lane (09 R203): the identity raises nothing; a NaN is canonical and sets NF. -/
def redLane (t : ElemType) (ident : Nat) : Option Nat → Nat × Flags
  | none => (ident, 0)
  | some e => if t = .fp32 then (let r := if (dec t e).isNan then fmt32.canon else e; (r, nfOf t r)) else (e, 0)
/-- A reduction to one value (09 R203). With no lane enabled by P none raises a flag (07 R143, 09 R178, log 105). -/
def vReduce (o : VRed) (f : Nat → Nat → Nat × Flags) (ident : Nat) (s : State) : Except Stop State := do
  let x ← s.rdVSrc (vIx o.side + 1) o.a
  let m ← s.rdP (vIx o.side + 2) o.pm.toNat
  let p ← s.rdP (vIx o.side + 3) o.p.toNat
  let u := redTree f 5 (laneOpts x m)
  let r := mapElems 32 p (s.oldV (vIx o.side) o.d.toNat) (fun _ => redLane o.ty ident u.1)
  .ok (s.giveV o.toVHead 2 (vDying o.a) (r.1, r.2 ||| if p = 0 then 0 else u.2))
/-- VRSUM (09 R203). -/
def effVrsum (o : VRed) (s : State) : Except Stop State := vReduce o (sumComb o.ty o.m) 0 s
/-- VRMAX. -/
def effVrmax (o : VRed) (s : State) : Except Stop State :=
  vReduce o (pickComb o.ty true o.nan) (match o.ty with | .fp32 => 0xFF800000 | .i32 => 0x80000000 | _ => 0) s
/-- VRMIN. -/
def effVrmin (o : VRed) (s : State) : Except Stop State :=
  vReduce o (pickComb o.ty false o.nan) (match o.ty with | .fp32 => 0x7F800000 | .i32 => 0x7FFFFFFF | _ => 0xFFFFFFFF) s
/-- VSCAN (09 R204). -/
def effVscan (o : VRed) (s : State) : Except Stop State := do
  let x ← s.rdVSrc (vIx o.side + 1) o.a
  let m ← s.rdP (vIx o.side + 2) o.pm.toNat
  let p ← s.rdP (vIx o.side + 3) o.p.toNat
  let u := scanLevels (sumComb o.ty o.m) p [1, 2, 4, 8, 16] (laneOpts x m)
  let r := mapElems 32 p (s.oldV (vIx o.side) o.d.toNat) (fun l => redLane o.ty 0 ((u.1[l]?).getD none))
  .ok (s.giveV o.toVHead 2 (vDying o.a) (r.1, r.2 ||| u.2))

/-- A predicate of two predicates (09 R205). -/
def pBin (o : POp2) (f : BitVec 32 → BitVec 32 → BitVec 32) (s : State) : Except Stop State := do
  let a ← s.rdP (vIx o.side + 1) o.a.toNat
  let b ← s.rdP (vIx o.side + 2) o.b.toNat
  let m ← s.rdP (vIx o.side + 3) o.p.toNat
  .ok (s.giveP o.side o.d o.wbs 1 m (s.oldP (vIx o.side) o.d.toNat) [] (f a b))
/-- PAND (09 R205). -/
def effPand (o : POp2) (s : State) : Except Stop State := pBin o (fun a b => a &&& b) s
/-- POR. -/
def effPor (o : POp2) (s : State) : Except Stop State := pBin o (fun a b => a ||| b) s
/-- PXOR. -/
def effPxor (o : POp2) (s : State) : Except Stop State := pBin o (fun a b => a ^^^ b) s
/-- PNOT (09 R205). -/
def effPnot (side : Side) (p d : BitVec 4) (wbs : Bool) (a : BitVec 4) (s : State) : Except Stop State := do
  let x ← s.rdP (vIx side + 1) a.toNat
  let m ← s.rdP (vIx side + 3) p.toNat
  .ok (s.giveP side d wbs 1 m (s.oldP (vIx side) d.toNat) [] (~~~x))
/-- PSET (09 R205). -/
def effPset (side : Side) (p d : BitVec 4) (wbs first : Bool) (a : SSrc) (s : State) : Except Stop State := do
  let x ← s.rdSSrc (vIx side + 1) a
  let m ← s.rdP (vIx side + 3) p.toNat
  .ok (s.giveP side d wbs 1 m (s.oldP (vIx side) d.toNat) (sDying a)
    (if first then BitVec.ofNat 32 (2 ^ min x.toNat 32 - 1) else x.setWidth 32))
/-- PCNT (09 R205). -/
def effPcnt (side : Side) (d : BitVec 6) (wbs : Bool) (a : BitVec 4) (s : State) : Except Stop State := do
  let x ← s.rdP (vIx side + 1) a.toNat
  .ok (s.upMe (fun k => k.deliver 1 (destS d wbs) (some (vLatch side)) (BitVec.ofNat 1024 (popN 32 x.toNat)) 0))
/-- A flag from a predicate (09 R205). -/
def pFlag (side : Side) (d : BitVec 3) (wbs : Bool) (a : BitVec 4) (f : BitVec 32 → Bool) (s : State) : Except Stop State := do
  let x ← s.rdP (vIx side + 1) a.toNat
  .ok (s.upMe (fun k => k.deliver 1 (destF d wbs) (some (vLatch side)) (if f x then 1 else 0) 0))
/-- PANY (09 R205). -/
def effPany (side : Side) (d : BitVec 3) (wbs : Bool) (a : BitVec 4) (s : State) : Except Stop State := pFlag side d wbs a (fun x => x != 0) s
/-- PALL (09 R205). -/
def effPall (side : Side) (d : BitVec 3) (wbs : Bool) (a : BitVec 4) (s : State) : Except Stop State :=
  pFlag side d wbs a (fun x => x == 0xFFFFFFFF) s

/-- VCMP, issued. -/
def execVcmp (side : Side) (p d : BitVec 4) (wbs : Bool) (ty : ElemType) (cc : VCond) (a b : VSrc) (s : State) : Host.Outcome State Fault Refusal := runSlot (effVcmp side p d wbs ty cc a b s) s
/-- VSEL, issued. -/
def execVsel (h : VHead) (a b : VSrc) (s : State) : Host.Outcome State Fault Refusal := runSlot (effVsel h a b s) s
/-- VMOV, issued. -/
def execVmov (h : VHead) (a : VSrc) (s : State) : Host.Outcome State Fault Refusal := runSlot (effVmov h a s) s
/-- VBCST, issued. -/
def execVbcst (h : VHead) (ty : ElemType) (a : SSrc) (s : State) : Host.Outcome State Fault Refusal := runSlot (effVbcst h ty a s) s
/-- VSPLT, issued. -/
def execVsplt (o : VOpS) (s : State) : Host.Outcome State Fault Refusal := runSlot (effVsplt o s) s
/-- VROTL, issued. -/
def execVrotl (o : VOpS) (s : State) : Host.Outcome State Fault Refusal := runSlot (effVrotl o s) s
/-- VPERM, issued. -/
def execVperm (h : VHead) (a b : VSrc) (s : State) : Host.Outcome State Fault Refusal := runSlot (effVperm h a b s) s
/-- VPACK, issued. -/
def execVpack (o : VOp1) (half : BitVec 2) (s : State) : Host.Outcome State Fault Refusal := runSlot (effVpack o half s) s
/-- VUNPK, issued. -/
def execVunpk (o : VOp1) (half : BitVec 2) (s : State) : Host.Outcome State Fault Refusal := runSlot (effVunpk o half s) s
/-- VEXTR, issued. -/
def execVextr (side : Side) (d : BitVec 6) (wbs : Bool) (ty : ElemType) (a : VSrc) (b : SSrc) (s : State) : Host.Outcome State Fault Refusal := runSlot (effVextr side d wbs ty a b s) s
/-- VINS, issued. -/
def execVins (h : VHead) (ty : ElemType) (a b : SSrc) (s : State) : Host.Outcome State Fault Refusal := runSlot (effVins h ty a b s) s
/-- VRSUM, issued. -/
def execVrsum (o : VRed) (s : State) : Host.Outcome State Fault Refusal := runSlot (effVrsum o s) s
/-- VRMAX, issued. -/
def execVrmax (o : VRed) (s : State) : Host.Outcome State Fault Refusal := runSlot (effVrmax o s) s
/-- VRMIN, issued. -/
def execVrmin (o : VRed) (s : State) : Host.Outcome State Fault Refusal := runSlot (effVrmin o s) s
/-- VSCAN, issued. -/
def execVscan (o : VRed) (s : State) : Host.Outcome State Fault Refusal := runSlot (effVscan o s) s
/-- PAND, issued. -/
def execPand (o : POp2) (s : State) : Host.Outcome State Fault Refusal := runSlot (effPand o s) s
/-- POR, issued. -/
def execPor (o : POp2) (s : State) : Host.Outcome State Fault Refusal := runSlot (effPor o s) s
/-- PXOR, issued. -/
def execPxor (o : POp2) (s : State) : Host.Outcome State Fault Refusal := runSlot (effPxor o s) s
/-- PNOT, issued. -/
def execPnot (side : Side) (p d : BitVec 4) (wbs : Bool) (a : BitVec 4) (s : State) : Host.Outcome State Fault Refusal := runSlot (effPnot side p d wbs a s) s
/-- PSET, issued. -/
def execPset (side : Side) (p d : BitVec 4) (wbs first : Bool) (a : SSrc) (s : State) : Host.Outcome State Fault Refusal := runSlot (effPset side p d wbs first a s) s
/-- PCNT, issued. -/
def execPcnt (side : Side) (d : BitVec 6) (wbs : Bool) (a : BitVec 4) (s : State) : Host.Outcome State Fault Refusal := runSlot (effPcnt side d wbs a s) s
/-- PANY, issued. -/
def execPany (side : Side) (d : BitVec 3) (wbs : Bool) (a : BitVec 4) (s : State) : Host.Outcome State Fault Refusal := runSlot (effPany side d wbs a s) s
/-- PALL, issued. -/
def execPall (side : Side) (d : BitVec 3) (wbs : Bool) (a : BitVec 4) (s : State) : Host.Outcome State Fault Refusal := runSlot (effPall side d wbs a s) s

end Sys2Proof.Machine
end

