-- ==== Sys2Proof/Machine/Matrix.lean ====
section
/-! DEFINITION. Matrix.lean: accumulator elements (10 R206), the arithmetic of a K-step (10 R215 to R218) and the matrix slot
(10 R228 to R235). An MMA is queued at issue; its operands are read step by step (10 R214) and its sums land when the
results become readable (10 R224). -/

namespace Sys2Proof.Machine

/-- An accumulator element read (10 R206). -/
inductive Acc64 where
  | fin (n : Int) (u : Int)
  | inf (neg : Bool)
  | nan
  | negZero
  deriving DecidableEq, Repr

/-- Read an element (10 R206). -/
def accOf (e : Word) : Acc64 :=
  let ee : Nat := e.toNat / 2 ^ 54
  let gm : Nat := e.toNat % 2 ^ 54
  if ee = 1023 then
    match gm with
    | 0 => .inf false
    | 1 => .inf true
    | 3 => .negZero
    | _ => .nan
  else .fin (sx gm 54) ((ee : Int) - 552)

/-- Elem(E, n) with unit u = E - 552 (10 R206); below -552 E is 0, and above 471 it is taken modulo 1,024 (log 106). -/
def mkElem (u n : Int) : Word := BitVec.ofNat 64 ((u + 552).toNat % 1024 * 2 ^ 54 + wrapN 54 n)
/-- The specials (10 R206). -/
def accInf (neg : Bool) : Word := if neg then 0xFFC0000000000001 else 0xFFC0000000000000
/-- See `accInf`. -/
def accNan : Word := 0xFFC0000000000002
/-- See `accInf`. -/
def accNegZero : Word := 0xFFC0000000000003

/-- floor(log2 |n × 2^e|) of a nonzero value. -/
def ilog (n e : Int) : Int := (Nat.log2 n.natAbs : Int) + e

/-- AlignInt(n × 2^e, q, mode) (10 R215): the integer and NX. -/
def alignInt (n e q : Int) (mode : Config.AlignMode) : Int × Flags :=
  if q ≤ e then (n * 2 ^ (e - q).toNat, 0)
  else
    let d := 2 ^ (q - e).toNat
    let lo := n.natAbs / d
    let r := n.natAbs % d
    let a := match mode with
      | .trunc => lo
      | .rne => if roundsUp .rne false lo r d then lo + 1 else lo
    (if n < 0 then -(a : Int) else (a : Int), flIf (decide (r ≠ 0)) flNX)

/-- Rounded to 8 significant bits with unbounded exponent (10 R215). -/
def round8 (n e : Int) : Int × Int × Flags :=
  let k := Nat.log2 n.natAbs
  if k ≤ 7 then (n, e, 0)
  else
    let r := alignInt n e (e + (k - 7 : Nat)) .rne
    (r.1, e + (k - 7 : Nat), r.2)

/-- Product (10 R215): the operands with their scale bytes. -/
def product (a : FV) (sa : Nat) (b : FV) (sb : Nat) (pf : Config.Profile) : Partial × Flags :=
  if a.isNan || b.isNan || sa == 255 || sb == 255 then (.nan, 0)
  else match a.mul b with
    | (.nan, f) => (.nan, f)
    | (.inf s, _) => (.inf s, 0)
    | (.fin s m e, _) =>
      if m = 0 then (.zero s, 0)
      else
        let n : Int := if s then -(m : Int) else (m : Int)
        let e := e + ((sa : Int) - 127) + ((sb : Int) - 127)
        match pf.prod with
        | .exact => (.fin n e, 0)
        | .bf16 => let r := round8 n e; (.fin r.1 r.2.1, r.2.2)

/-- The finite products of a group. -/
def finsOf : List Partial → List (Int × Int)
  | [] => []
  | .fin n q :: ps => (n, q) :: finsOf ps
  | _ :: ps => finsOf ps

/-- Greatest exponent of a list of finite products; of none, the bound given. -/
def emaxOf : List (Int × Int) → Option Int
  | [] => none
  | (n, q) :: ps => match emaxOf ps with
    | none => some (ilog n q)
    | some m => some (max m (ilog n q))

/-- GroupSum (10 R216). -/
def groupSum (ps : List Partial) (pf : Config.Profile) : Partial × Flags :=
  if ps.contains .nan then (.nan, 0)
  else if ps.contains (.inf false) && ps.contains (.inf true) then (.nan, flNV)
  else if ps.contains (.inf false) then (.inf false, 0)
  else if ps.contains (.inf true) then (.inf true, 0)
  else match emaxOf (finsOf ps) with
    | none => (.zero (ps.all (fun p => p == .zero true)), 0)
    | some m =>
      let q := m - pf.aw
      let rs := (finsOf ps).map (fun x => alignInt x.1 x.2 q pf.ar)
      let n := rs.foldl (fun t r => t + r.1) 0
      (if n = 0 then .zero false else .fin n q, flOr (rs.map Prod.snd))

/-- Combine (10 R217). -/
def combine (pf : Config.Profile) (x y : Partial) : Partial × Flags :=
  match x, y with
  | .nan, _ => (.nan, 0)
  | _, .nan => (.nan, 0)
  | .inf a, .inf b => if a = b then (.inf a, 0) else (.nan, flNV)
  | .inf a, _ => (.inf a, 0)
  | _, .inf b => (.inf b, 0)
  | .zero a, .zero b => (.zero (a && b), 0)
  | .zero _, y => (y, 0)
  | x, .zero _ => (x, 0)
  | .fin n1 q1, .fin n2 q2 =>
    let q := max q1 q2
    let a := alignInt n1 q1 q pf.ar
    let b := alignInt n2 q2 q pf.ar
    (if a.1 + b.1 = 0 then .zero false else .fin (a.1 + b.1) q, a.2 ||| b.2)

/-- The pairwise tree (10 R217), over at most `fuel` levels. -/
def pairTree (pf : Config.Profile) : Nat → List Partial → Partial × Flags
  | 0, ps => (ps.head?.getD (.zero false), 0)
  | fuel + 1, ps =>
    if ps.length ≤ 1 then (ps.head?.getD (.zero false), 0)
    else
      let h := ps.length / 2
      let c := List.zipWith (combine pf) (ps.take h) (ps.drop h)
      let r := pairTree pf fuel (c.map Prod.fst)
      (r.1, flOr (c.map Prod.snd) ||| r.2)

/-- The serial tree (10 R217). -/
def serialTree (pf : Config.Profile) : Partial × Flags → List Partial → Partial × Flags
  | t, [] => t
  | t, p :: ps => let c := combine pf t.1 p; serialTree pf (c.1, t.2 ||| c.2) ps

/-- Tree (10 R217). -/
def treeSum (pf : Config.Profile) (ps : List Partial) : Partial × Flags :=
  match pf.tree, ps with
  | _, [] => (.zero false, 0)
  | .pairwise, ps => pairTree pf 8 ps
  | .serial, p :: ps => serialTree pf (p, 0) ps

/-- Cut a list into n groups of g. -/
def chunksOf {α : Type} (g : Nat) : Nat → List α → List (List α)
  | 0, _ => []
  | n + 1, l => l.take g :: chunksOf g n (l.drop g)

/-- One output of a K-step: the partial of row a and column b (10 R215 to R217). -/
def dotStep (pf : Config.Profile) (a b : List (FV × Nat)) : Partial × Flags :=
  let ps := List.zipWith (fun x y => product x.1 x.2 y.1 y.2 pf) a b
  let gs := (chunksOf pf.gs (ps.length / pf.gs) (ps.map Prod.fst)).map (fun g => groupSum g pf)
  let t := treeSum pf (gs.map Prod.fst)
  (t.1, flOr (ps.map Prod.snd) ||| flOr (gs.map Prod.snd) ||| t.2)

/-- AccAdd (10 R218): the element, the flags of 10 R219, and whether the guard overflowed. -/
def accAdd (pf : Config.Profile) (e : Word) (x : Partial) : Word × Flags × Bool :=
  match accOf e, x with
  | .nan, _ => (accNan, flNF, false)
  | _, .nan => (accNan, flNF, false)
  | .inf s, .inf t => if s = t then (e, flNF, false) else (accNan, flNV ||| flNF, false)
  | .inf _, _ => (e, flNF, false)
  | _, .inf t => (accInf t, flNF, false)
  | .negZero, .zero t => (if t then e else 0, 0, false)
  | .fin _ _, .zero _ => (e, 0, false)
  | .negZero, .fin n q =>
    let u := ilog n q - 40
    let r := alignInt n q u pf.ar
    (mkElem u r.1, r.2, false)
  | .fin m v, .fin n q =>
    if m = 0 then
      let u := ilog n q - 40
      let r := alignInt n q u pf.ar
      (mkElem u r.1, r.2, false)
    else
      let r := alignInt n q v pf.ar
      let t := m + r.1
      if t < -(2 ^ 53 : Int) ∨ (2 ^ 53 : Int) ≤ t then (accNan, r.2 ||| flHR ||| flNF, true)
      else (mkElem v t, r.2, false)

/-- Steps of an element: its partials in order (10 R218). -/
def accSteps (pf : Config.Profile) : List Partial → Word → Word × Flags × Bool
  | [], e => (e, 0, false)
  | x :: xs, e =>
    let r := accAdd pf e x
    let t := accSteps pf xs r.1
    (t.1, r.2.1 ||| t.2.1, r.2.2 || t.2.2)

/-- Renorm (10 R231). -/
def renorm (pf : Config.Profile) (e : Word) : Word × Flags :=
  match accOf e with
  | .fin n u =>
    if n = 0 then (e, 0)
    else
      let u2 := ilog n u - 40
      let k : Int := 41 - pf.np
      let r := alignInt n u (u2 + k) .rne
      let m := r.1 * 2 ^ k.toNat
      if m.natAbs = 2 ^ 41 then (mkElem (u2 + 1) (if m < 0 then -(2 ^ 40) else 2 ^ 40), r.2) else (mkElem u2 m, r.2)
  | _ => (e, 0)

/-- The exact value of an element (10 R206). -/
def accVal (e : Word) : FV :=
  match accOf e with
  | .fin n u => .fin (decide (n < 0)) n.natAbs u
  | .inf s => .inf s
  | .nan => .nan
  | .negZero => .fin true 0 0

/-- The element of a converted AWR (10 R233). -/
def elemOf (x : FV) : Word :=
  match x with
  | .nan => accNan
  | .inf s => accInf s
  | .fin s m e =>
    if m = 0 then (if s then accNegZero else 0)
    else
      let u := (Nat.log2 m : Int) + e - 40
      let a := fixAt 0 m (e - u)
      mkElem u (if s then -(a : Int) else (a : Int))

/-- The headroom word (10 R232). -/
def headroom (e : Word) : Nat :=
  let gm : Nat := e.toNat % 2 ^ 54
  let x := if bit gm 53 then 2 ^ 54 - 1 - gm else gm
  2 ^ 8 * nb (e.toNat / 2 ^ 54 == 1023) + (if x = 0 then 53 else 52 - Nat.log2 x)

/-- K of a K-step and its bytes (10 R210). -/
def stepK (t : ElemType) : Nat := if t = .bf16 then 64 else 128
/-- See `stepK`. -/
def stepBytes (t : ElemType) : Nat := if t = .t6 then 3072 else 4096

/-- Element n of a block of bytes (04 R57). -/
def blockElem (t : ElemType) (bs : List Byte) (n : Nat) : Nat :=
  match t with
  | .bf16 => leNat ((bs.drop (2 * n)).take 2)
  | .t6 => leNat ((bs.drop (3 * (n / 4))).take 3) / 2 ^ (6 * (n % 4)) % 64
  | _ => leNat ((bs.drop n).take 1)

/-- Row i of A, or column j of B, of a step: elements with their scale bytes (10 R211, R212). `tr` is set when element
(r, k) of the vector lies at r × K + k. -/
def stepVec (t : ElemType) (byVec : Bool) (bs sc : List Byte) (off r : Nat) : List (FV × Nat) :=
  (upFrom 0 (stepK t)).map (fun k =>
    (dec t (blockElem t bs (if byVec then r * stepK t + k else k * 32 + r)),
     match sc with
     | [] => 127
     | sc => ((sc[off + 4 * r + k / 32]?).getD 0).toNat))

/-- The partials of one K-step (10 R211 to R217) from its bytes. -/
def kStep (o : MmaOp) (pf : Config.Profile) (a b sc : List Byte) : List (List Partial) × Flags :=
  let rows := (upFrom 0 32).map (stepVec o.ty (!o.ta) a sc 0)
  let cols := (upFrom 0 32).map (stepVec o.ty o.tb b sc 128)
  let ps := rows.map (fun r => cols.map (dotStep pf r))
  (ps.map (fun r => r.map Prod.fst), flOr (ps.map (fun r => flOr (r.map Prod.snd))))

/-- Steps of an operation whose operands are read. -/
def MxOp.got (m : MxOp) : Nat := m.acc + m.read.length

/-- Read the next step of an operation whose cycle has come (10 R214): its partials, or the poison it met (20 R379). -/
def MxOp.readStep (m : MxOp) (k : Cluster) : MxOp :=
  let n := m.got
  let nb' := stepBytes m.op.ty
  let a := m.aAddr + n * nb'
  let b := m.bAddr + n * nb'
  let c := m.sAddr + 256 * n
  let scaled := m.op.ss.isSome
  let r := kStep m.op (Config.profile m.prof) (k.mem.bytes a nb') (k.mem.bytes b nb') (if scaled then k.mem.bytes c 256 else [])
  let bad := ((touchedUnits a nb' ++ touchedUnits b nb' ++ (if scaled then touchedUnits c 256 else [])).find? k.poison.contains)
  { m with read := m.read ++ [r.1], rfl := m.rfl ||| r.2
           poison := match m.poison with | some p => some p | none => bad.map (fun u => 128 * u) }

/-- Every operation reads the steps that begin in issue cycle c (10 R214). -/
def Core.mxRead (k : Core) (cl : Cluster) : Core :=
  { k with mx := k.mx.map (fun m =>
      if m.got < m.steps ∧ m.iss + 8 * m.got ≤ k.ic then m.readStep cl else m) }

/-- Issue cycle in which the results of an operation become readable (07 R139). -/
def MxOp.due (m : MxOp) : Nat := m.iss + 8 * m.steps + 20

/-- Accumulate the steps read of an operation on bank acb + d (10 R218, R224): rows 8 d to 8 d + 7 of the tile. The flags and the first element
whose guard overflowed. -/
def MxOp.bankLand (m : MxOp) (d : Nat) (es : List Word) : List Word × Flags × Option Nat :=
  let pf := Config.profile m.prof
  let rs := (es.zipIdx).map (fun (e, i) =>
    accSteps pf (m.read.map (fun st => ((((st[8 * d + i / 32]?).getD [])[i % 32]?).getD (.zero false)))) e)
  (rs.map (fun r => r.1), flOr (rs.map (fun r => r.2.1)), (rs.zipIdx.find? (fun r => r.1.2.2)).map (fun r => r.2))

/-- Bank b is part of the tile of an operation. -/
def MxOp.holds (m : MxOp) (b : Nat) : Bool := decide (m.acb ≤ b) && decide (b < m.acb + 4)

/-- Bank b has a pending result (10 R224); `mma` leaves out the operations with the same ACB. -/
def Core.bankPending (k : Core) (b : Nat) (mma : Bool) : Bool :=
  k.bpend.any (fun p => p.bank == b && decide (p.iss < k.ic)) || (!mma && k.mx.any (fun m => m.holds b))

/-- The lowest of n banks from b that is not allocated to the task (10 R209). -/
def Core.unheld (k : Core) (b n : Nat) : Option Nat := (upFrom b n).find? (fun x => !k.alloc.contains x)

/-- The banks an instruction names are allocated, or ILLOP (10 R209). -/
def Core.bankCheck (k : Core) (b n : Nat) : Rd Unit :=
  match k.unheld b n with
  | some x => illop (0x400 + x)
  | none => .ok ()

/-- Read n banks from b at issue: an entry that fails its check (20 R379), a pending result in strict mode (07 R136). -/
def Core.bankReads (k : Core) (mma : Bool) (b : Nat) : Nat → Rd Unit
  | 0 => .ok ()
  | n + 1 =>
    if k.bad.contains (codeB b) then .error (.rewind 0)
    else if k.strictNow && k.bankPending b mma then trapD .early (codeB b)
    else k.bankReads mma (b + 1) n

/-- Bank groups that a range of scratch touches (11 R239, 10 R213). -/
def bankGroups (a n : Nat) : List Nat :=
  (upFrom 0 4).filter (fun g => decide (a < (g + 1) * 8 * 786432) && decide (g * 8 * 786432 < a + n))

/-- Checks of R213 step 1 on one region. -/
def Cluster.regionBad (k : Cluster) (a align n : Nat) : Bool := a % align != 0 || (k.badRange a n).isSome

/-- MMA and MMAL (10 R213, R229): the checks at issue, then the operation is queued. A bank read early in strict mode (07 R140) is judged
after them (log 104). -/
def mmaWith (o : MmaOp) (s : State) : Except Stop State := do
  let a ← s.rdS 41 o.as.toNat
  let b ← s.rdS 42 o.bs.toNat
  let c ← match o.ss with
    | some r => s.rdS 43 r.toNat
    | none => .ok 0
  let k := s.me
  let cl := s.cluster (coreCluster s.cur)
  let steps := o.kn.toNat + 1
  let n := stepBytes o.ty * steps
  let acb := o.acb.toNat
  if cl.regionBad a.toNat 128 n then illop 0x500
  else if cl.regionBad b.toNat 128 n then illop 0x501
  else if o.ss.isSome && cl.regionBad c.toNat 64 (256 * steps) then illop 0x502
  else do
    k.bankCheck acb 4
    match (bankGroups a.toNat n).find? (bankGroups b.toNat n).contains with
    | some g => trapD .bankconf g
    | none =>
      match k.mxBusy k.ic with
      | some m => trapD .mxbusy (m.iss + 8 * m.steps - k.ic)
      | none => do
        k.bankReads true acb 4
        .ok (s.setMe { k with mx := k.mx ++ [⟨k.ic, acb, steps, k.prof, o, a.toNat, b.toNat, c.toNat, [], 0, none, 0, none⟩] })
/-- MMA (10 R229). -/
def effMma (o : MmaOp) (s : State) : Except Stop State := mmaWith o s
/-- MMAL (10 R226, R229). -/
def effMmal (o : MmaOp) (s : State) : Except Stop State := mmaWith o s

/-- Queue bank results. -/
def State.giveBanks (s : State) (ps : List BankPend) : State := s.upMe (fun k => { k with bpend := k.bpend ++ ps })
/-- All bits of an element. -/
def allBits : Word := 0xFFFFFFFFFFFFFFFF

/-- AZERO (10 R230). -/
def effAzero (bank nm1 : BitVec 7) (s : State) : Except Stop State := do
  s.me.bankCheck bank.toNat (nm1.toNat + 1)
  .ok (s.giveBanks ((upFrom bank.toNat (nm1.toNat + 1)).map (fun b =>
    ⟨s.me.ic + 1, s.me.ic, b, (upFrom 0 256).map (fun i => (i, 0)), allBits, 0⟩)))
/-- ANORM (10 R231): it reads its banks at issue. -/
def effAnorm (bank nm1 : BitVec 7) (s : State) : Except Stop State := do
  s.me.bankCheck bank.toNat (nm1.toNat + 1)
  s.me.bankReads false bank.toNat (nm1.toNat + 1)
  .ok (s.giveBanks ((upFrom bank.toNat (nm1.toNat + 1)).map (fun b =>
    let rs := (s.me.bank b).map (renorm (Config.profile s.me.prof))
    ⟨s.me.ic + 4, s.me.ic, b, rs.zipIdx.map (fun (r, i) => (i, r.1)), allBits, flOr (rs.map Prod.snd)⟩)))

/-- Lane of an ARD (10 R232). -/
def ardLane (prof : Nat) (form : RowForm) (e : Word) : Nat × Flags :=
  match form with
  | .conv t =>
    let r := roundTo (fmtD t) (if (Config.profile prof).ardRtz then .rtz else .rne) (accVal e)
    (r.1, r.2 ||| nfOf t r.1)
  | .rawlo => (e.toNat % 2 ^ 32, 0)
  | .rawhi => (e.toNat / 2 ^ 32, 0)
  | .head => (headroom e, 0)
/-- ARD (10 R232): V and K5. -/
def effArd (vd : BitVec 11) (bank : BitVec 7) (row : BitVec 3) (form : RowForm) (s : State) : Except Stop State := do
  s.me.bankCheck bank.toNat 1
  s.me.bankReads false bank.toNat 1
  let rs := (((s.me.bank bank.toNat).drop (32 * row.toNat)).take 32).map (ardLane s.me.prof form)
  .ok (s.upMe (fun k => k.deliver 4 (.v vd) (some 5) (packElems 32 (rs.map Prod.fst)) (flOr (rs.map Prod.snd))))

/-- Element of an AWR (10 R233) and the bits it replaces. -/
def awrElem (form : RowForm) (x : Nat) : Word :=
  match form with
  | .conv t => elemOf (dec t x)
  | .rawlo => BitVec.ofNat 64 x
  | .rawhi => BitVec.ofNat 64 (x * 2 ^ 32)
  | .head => 0
/-- See `awrElem`. -/
def awrMask : RowForm → Word
  | .rawlo => 0xFFFFFFFF
  | .rawhi => 0xFFFFFFFF00000000
  | _ => allBits
/-- AWR (10 R233). -/
def effAwr (vs : BitVec 11) (bank : BitVec 7) (row : BitVec 3) (form : RowForm) (s : State) : Except Stop State := do
  let x ← s.rdV 41 vs.toNat
  s.me.bankCheck bank.toNat 1
  .ok (s.giveBanks [⟨s.me.ic + 2, s.me.ic, bank.toNat,
    (upFrom 0 32).map (fun l => (32 * row.toNat + l, awrElem form (elemAt 32 x l))), awrMask form, 0⟩])

/-- First bank of a free run of n (10 R234): the lowest that fits, aligned when n is a multiple of 4. -/
def Core.findRun (k : Core) (n : Nat) : Option Nat :=
  if k.quota < k.alloc.length + n then none
  else (upFrom 0 (129 - n)).find? (fun b => (n % 4 != 0 || b % 4 == 0) && (upFrom b n).all (fun x => !k.alloc.contains x))
/-- AALLOC (10 R234). -/
def effAalloc (sd : BitVec 6) (nm1 : BitVec 7) (s : State) : Except Stop State :=
  match s.me.findRun (nm1.toNat + 1) with
  | none => .ok (s.upMe (fun k => k.deliver 1 (destS sd false) none (vecOfWord allBits) 0))
  | some b => .ok (s.upMe (fun k => { k.deliver 1 (destS sd false) none (BitVec.ofNat 1024 b) 0 with
      bound := k.bound ++ [.alloc b (nm1.toNat + 1)] }))
/-- AFREE (10 R234): MXBUSY names the lowest bank with a pending result (06 R457). -/
def effAfree (bank nm1 : BitVec 7) (s : State) : Except Stop State := do
  s.me.bankCheck bank.toNat (nm1.toNat + 1)
  match (upFrom bank.toNat (nm1.toNat + 1)).find? (fun b => s.me.bankPending b false) with
  | some b => trapD .mxbusy (0x400 + b)
  | none => .ok (s.upMe (fun k => { k with bound := k.bound ++ [.free bank.toNat (nm1.toNat + 1)] }))
/-- ASTAT (10 R235). -/
def effAstat (sd : BitVec 6) (s : State) : Except Stop State :=
  let m := s.me.mxState s.me.ic
  .ok (s.upMe (fun k => k.deliver 1 (destS sd false) none
    (BitVec.ofNat 1024 (2 ^ 40 * m.2.1 + 2 ^ 32 * m.1 + 2 ^ 24 * nb m.2.2 + 2 ^ 8 * k.quota + k.alloc.length)) 0))

/-- MMA, issued. -/
def execMma (o : MmaOp) (s : State) : Host.Outcome State Fault Refusal := runSlot (effMma o s) s
/-- MMAL, issued. -/
def execMmal (o : MmaOp) (s : State) : Host.Outcome State Fault Refusal := runSlot (effMmal o s) s
/-- AZERO, issued. -/
def execAzero (bank nm1 : BitVec 7) (s : State) : Host.Outcome State Fault Refusal := runSlot (effAzero bank nm1 s) s
/-- ANORM, issued. -/
def execAnorm (bank nm1 : BitVec 7) (s : State) : Host.Outcome State Fault Refusal := runSlot (effAnorm bank nm1 s) s
/-- ARD, issued. -/
def execArd (vd : BitVec 11) (bank : BitVec 7) (row : BitVec 3) (form : RowForm) (s : State) : Host.Outcome State Fault Refusal := runSlot (effArd vd bank row form s) s
/-- AWR, issued. -/
def execAwr (vs : BitVec 11) (bank : BitVec 7) (row : BitVec 3) (form : RowForm) (s : State) : Host.Outcome State Fault Refusal := runSlot (effAwr vs bank row form s) s
/-- AALLOC, issued. -/
def execAalloc (sd : BitVec 6) (nm1 : BitVec 7) (s : State) : Host.Outcome State Fault Refusal := runSlot (effAalloc sd nm1 s) s
/-- AFREE, issued. -/
def execAfree (bank nm1 : BitVec 7) (s : State) : Host.Outcome State Fault Refusal := runSlot (effAfree bank nm1 s) s
/-- ASTAT, issued. -/
def execAstat (sd : BitVec 6) (s : State) : Host.Outcome State Fault Refusal := runSlot (effAstat sd s) s

end Sys2Proof.Machine
end

