-- ==== Sys2Proof/Machine/RegWrite.lean ====
section
/-! DEFINITION. RegWrite.lean: writes of the register blocks (25 R459). A register whose write is a step of its own owes that step;
every other takes its writable fields (00 R4). A base whose low bits must be zero takes them as reserved (log 23). -/

namespace Sys2Proof.Machine

/-- The ID of a block (25 R438). -/
def blockId : Block → Nat
  | .ident => 1 | .launchPort => 2 | .arbiter => 3 | .tagAlloc => 4 | .fwTable => 5 | .spt => 6 | .rbd => 7 | .view => 8
  | .trapRec => 9 | .contain => 10 | .salder => 11 | .intr => 12 | .mgmt => 13 | .connector => 14

/-- The HXD as the requester of a DIEFENCED record (20 R397). -/
def srcHost : Nat := 68

/-- The host as that requester: the application cores, or in endpoint use, where they do not start, the external host (20 R397, 25 R441). -/
def State.hostSrc (s : State) : Nat := if s.mgmt.endpoint then 69 else srcHost

/-- An access to a die that is not LIVE is answered DIEFENCED, and counted for its source (20 R389). -/
def State.dieFencedAnswer (s : State) (d src : Nat) : State :=
  s.upDie d (fun x => { x with refused := put x.refused src ((look x.refused src).getD 0 + 1) })

/-- The die that is not LIVE whose register block an address lies in (20 R389). -/
def State.fencedAt (s : State) (pa : Nat) : Option Nat :=
  let o := pa - Config.capBase
  let d := (blockPlace (o / 0x100_0000) (o % 0x100_0000)).1
  if region pa = .hxd ∧ o / 0x100_0000 = 2 ∧ d < 64 ∧ (s.die d).st ≠ .live then some d else none

/-- The die that asks, as a DIEFENCED record names it (20 R397). -/
def askerOf (c : Nat) : Nat := if isNmv c then srcHost else coreDie c

/-- A core's read or atomic at such an address is answered so, and counted (20 R389). -/
def State.fencedAsk (s : State) (pa c : Nat) : State :=
  match s.fencedAt pa with
  | some d => s.dieFencedAnswer d (askerOf c)
  | none => s

/-- Replace bytes [o, o + n) of a word. -/
def byteMerge (w : Word) (o n v : Nat) : Word :=
  BitVec.ofNat 64 (w.toNat % 2 ^ (8 * o) + 2 ^ (8 * o) * (v % 2 ^ (8 * n)) + w.toNat / 2 ^ (8 * (o + n)) * 2 ^ (8 * (o + n)))

/-- Replace an element of a list, padding with zeros. -/
def setAt (l : List Word) (i : Nat) (w : Word) : List Word :=
  let l := l ++ List.replicate (i + 1 - l.length) 0
  l.take i ++ [w] ++ l.drop (i + 1)

/-- Write bytes of an entry's other fields, unless EN is 1; `ro` says which of the entry's bytes no write changes. -/
def FWin.wr (w : FWin) (ro : Nat → Bool) (o size v : Nat) : FWin :=
  if w.en then w
  else (upFrom 0 size).foldl (fun w i =>
    if ro (o + i) then w
    else { w with regs := setAt w.regs ((o + i) / 8) (byteMerge (w.regs.getD ((o + i) / 8) 0) ((o + i) % 8) 1 (v / 2 ^ (8 * i))) }) w

/-- Bytes of a format window that no plain write changes: CTRL, FWSTAT, the reserved words (04 R73). -/
def fwReadOnly (o : Nat) : Bool := decide (0x20 ≤ o)
/-- Bytes of a stride pattern that no plain write changes: CTRL and the reserved word (12 R259). -/
def sptReadOnly (o : Nat) : Bool := decide (o < 4) || decide (0x18 ≤ o)

/-- A write of the identity block (25 R439). -/
def State.wrIdent (s : State) (off v : Nat) : State :=
  if off = 8 ∧ s.launches.all (fun e => match e.2.state with | .held | .accepting => true | _ => false) then
    s.upHxd (fun h => { h with regs := put h.regs (regKey 1 8) (BitVec.ofNat 64 (v % 2 ^ 20)) })
  else s

/-- LP_SUBMIT (05 R81): bits [63:57] of the record's address are copies of bit 56. -/
def submitAddr (v : Word) : Word :=
  let a := fld v.toNat 0 51 * 64
  BitVec.ofNat 64 (if bit a 56 then a + 127 * 2 ^ 57 else a)

/-- A write of LP_SUBMIT submits one launch (05 R81); a package that started to management only accepts none (26 R451), nor one that is not
started yet or has no power (26 R450, R453). `w` is one more than the number of the request that writes, or 0. -/
def State.lpWrite (s : State) (d : Nat) (v : Word) (src w : Nat) : State :=
  if 64 ≤ d ∨ !s.hostUp then s
  else if (s.die d).st ≠ .live then s.dieFencedAnswer d src
  else s.submit d (submitAddr v) (v.toNat / 2 ^ 52) none w

/-- A submission that request n has written is held, and its write not completed (05 R83). -/
def State.submitHeld (s : State) (n : Nat) : Bool :=
  s.launches.any (fun e => e.2.state == .held && e.2.issuer.isNone && e.2.req == n + 1)

/-- A write of the launch port block of die d (05 R81, 18 R348). -/
def State.wrPort (s : State) (d off v src w : Nat) : State :=
  if 64 ≤ d then s
  else if off = 0 then s.lpWrite d (BitVec.ofNat 64 v) src w
  else if off = 0x10 then s.owe (.lpCancel d (BitVec.ofNat 64 v))
  else if off = 0x20 then s.owe (.lpMonimg d (BitVec.ofNat 64 v))
  else if off = 0x30 then s.upDie d (fun x => { x with wdlimit := BitVec.ofNat 64 v })
  else if off = 0x38 ∧ v ≠ 0 then s.upDie d (fun x => { x with wdsave := BitVec.ofNat 64 v })
  else s

/-- A write of the placement arbiter (05 R84, 18 R360). Save slots that it adds may be those a launch waits for (05 R102). -/
def State.wrArbiter (s : State) (off v : Nat) : State :=
  if off = 0 then s.upHxd (fun h => { h with paAging := BitVec.ofNat 64 v })
  else if off = 0x20 then s.upHxd (fun h => { h with saveBase := BitVec.ofNat 64 (v / 2 ^ 20 * 2 ^ 20) })
  else if off = 0x28 ∧ s.saved = [] then (s.upHxd (fun h => { h with saveSlots := v % 4096 })).owe .placementPass
  else s

/-- A write of the format-window table (04 R73, 25 R459): CTRL takes effect in one write that covers it. -/
def State.wrFw (s : State) (off size v : Nat) : State :=
  let n := off / 64
  let o := off % 64
  if 64 ≤ n then s
  else if o = 0x20 ∧ 4 ≤ size then
    s.owe (if bit v 31 then .fwEnable n (BitVec.ofNat 32 v) else .fwDisable n (BitVec.ofNat 32 v))
  else s.upHxd (fun h => { h with fw := put h.fw n ((h.win n).wr fwReadOnly o size v) })

/-- A write of the stride-pattern table (12 R259, 25 R459). -/
def State.wrSpt (s : State) (off size v : Nat) : State :=
  let n := off / 32
  let o := off % 32
  if 64 ≤ n then s
  else
    let s := s.upHxd (fun h => { h with spt := put h.spt n ((h.pat n).wr sptReadOnly o size v) })
    if o = 0 ∧ 4 ≤ size then
      s.owe (if bit v 31 then .sptEnable n (BitVec.ofNat 32 v) else .sptDisable n (BitVec.ofNat 32 v))
    else s

/-- A write of the block of RBD k (12 R254, 22 R413). -/
def State.wrRbd (s : State) (k off v : Nat) : State :=
  if 32 ≤ k then s
  else if off = 0 then s.owe (.rbDead k (BitVec.ofNat 64 v))
  else if off = 0x10 then
    if 512 ≤ v % 65536 ∧ v % 65536 ≤ 32768 then s.upStack k (fun x => { x with threshold := v % 65536 }) else s
  else if off = 0x30 then s.owe (.rbBkrel k (BitVec.ofNat 64 v))
  else s

/-- A write of the trap-record block (18 R356). -/
def State.wrTrapRec (s : State) (off v : Nat) : State :=
  let w : Word := BitVec.ofNat 64 v
  if off = 0 then s.upHxd (fun h => { h with laneH := { h.laneH with base := BitVec.ofNat 64 (v / 4096 * 4096) } })
  else if off = 0x08 then s.owe (.trCtlWrite true w)
  else if off = 0x18 then s.owe (.trDoneWrite true w)
  else if off = 0x20 then s.upHxd (fun h => { h with laneN := { h.laneN with base := BitVec.ofNat 64 (v / 4096 * 4096) } })
  else if off = 0x28 then s.owe (.trCtlWrite false w)
  else if off = 0x38 then s.owe (.trDoneWrite false w)
  else s

/-- A write of the containment block (20 R396). -/
def State.wrContain (s : State) (off v : Nat) : State :=
  if off = 0 then
    let d := v % 128
    if 67 < d ∨ (bit v 8 ∧ bit v 9) then s
    else if bit v 8 then s.owe (.ctFenceFence d)
    else if bit v 9 then s.owe (.ctFenceClearHold d)
    else s
  else if off = 8 then
    if 20 ≤ v % 64 ∧ v % 64 ≤ 40 then s.upHxd (fun h => { h with auditLog2 := v % 64 }) else s
  else s

/-- A write of the Salder block (25 R446): EN reads as written at once, and the port follows in its step. -/
def State.wrSalder (s : State) (off v : Nat) : State :=
  if off = 0 then
    if (vals s.hxd.ports).all (fun p => !bit p.ctl.toNat 0) then s.upHxd (fun h => { h with pkgid := BitVec.ofNat 64 (v % 4096) }) else s
  else if 0x100 ≤ off ∧ off < 0x300 then
    let n := (off - 0x100) / 8
    (s.upHxd (fun h => { h with ports := put h.ports n { h.port n with ctl := BitVec.ofNat 32 (nb (bit v 0)) } })).oweEach
      (if bit v 0 then .salderPortEnable n else if bit v 4 then .salderPortForget n else .salderPortDisable n)
  else if 0x1000 ≤ off ∧ off < 0x9000 then s.upHxd (fun h => { h with regs := put h.regs (regKey 11 off) (BitVec.ofNat 64 v) })
  else s

/-- A write of the interrupt block (25 R442): PEND is read-only. -/
def State.wrIntr (s : State) (off v : Nat) : State :=
  let old := ((look s.hxd.regs (regKey 12 off)).getD 0).toNat
  if off = 0 ∨ off = 0x10 then s.upHxd (fun h => { h with regs := put h.regs (regKey 12 off) (BitVec.ofNat 64 (v / 4096 * 4096)) })
  else if off = 8 ∨ off = 0x18 then
    let w : Word := BitVec.ofNat 64 (v % 2048 + 2 ^ 31 * nb (bit v 31) + 2 ^ 32 * nb (bit old 32))
    s.upHxd (fun h => { h with regs := put h.regs (regKey 12 off) w })
  else s

/-- MG_CMD of a mailbox: the connector's, or the register block's (26 R449). -/
def Mgmt.cmdOf (m : Mgmt) (conn : Bool) : Word := if conn then m.connCmd else m.cmd

/-- Set it. -/
def Mgmt.setCmd (m : Mgmt) (conn : Bool) (w : Word) : Mgmt := if conn then { m with connCmd := w } else { m with cmd := w }

/-- MG_MBOX of a mailbox, 4,096 bytes. -/
def Mgmt.bufOf (m : Mgmt) (conn : Bool) : List Byte := (if conn then m.connMbox else m.mbox) ++ List.replicate 4096 0

/-- Set it. -/
def Mgmt.setBuf (m : Mgmt) (conn : Bool) (bs : List Byte) : Mgmt := if conn then { m with connMbox := bs } else { m with mbox := bs }

/-- A mailbox is busy with a command (26 R454). -/
def Mgmt.busy (m : Mgmt) (conn : Bool) : Bool := fld (m.cmdOf conn).toNat 8 2 == 1

/-- The other mailbox is busy with a command whose doorbell came first (26 R449). -/
def Mgmt.behind (m : Mgmt) (conn : Bool) : Bool := m.busy (!conn) && m.connFirst != conn

/-- MG_CMD with a command, a state (0 idle, 1 busy, 2 done, 3 error), an error code and the length of its data in bits [44:32], which no
read shows. -/
def mgCmd (cmd st err len : Nat) : Word := BitVec.ofNat 64 (cmd % 256 + 2 ^ 8 * st + 2 ^ 16 * err + 2 ^ 32 * (len % 8192))

/-- A doorbell (26 R454): the command is busy until its step, and is served after one whose doorbell came before; a length above 4,096 is
error 0x06, and a command that no row gives ends as an error with a free code (log 24). Whether the signature of an UPCOMMIT verifies comes
with its step (log 19). -/
def State.doorbell (s : State) (conn : Bool) (v : Nat) : State :=
  let m := s.mgmt
  if m.busy conn then s
  else
    let cmd := v % 256
    let len := fld v 16 13
    let busy (s : State) : State := { s with mgmt := { m.setCmd conn (mgCmd cmd 1 0 len) with connFirst := conn != m.busy (!conn) } }
    if 4096 < len then { s with mgmt := m.setCmd conn (mgCmd cmd 3 6 0) }
    else if cmd = 1 then (busy s).owe (.upwrite conn)
    else if cmd = 2 then busy s
    else if cmd = 3 then (busy s).owe (.attest conn)
    else { s with fresh := s.fresh + 1, mgmt := m.setCmd conn (mgCmd cmd 3 (Config.unknownCommand s.fresh).toNat 0) }

/-- A write of bytes of MG_MBOX. -/
def State.wrMbox (s : State) (conn : Bool) (off size v : Nat) : State :=
  { s with mgmt := s.mgmt.setBuf conn (splice ((s.mgmt.bufOf conn).take 4096) off (toBytes size v)) }

/-- A write of the management block (26 R449). -/
def State.wrMgmt (s : State) (off size v : Nat) : State :=
  if 0x1000 ≤ off ∧ off < 0x2000 then s.wrMbox false (off - 0x1000) size v
  else if size ≠ 8 then s
  else if off = 8 then
    if 6000 ≤ v % 65536 ∧ v % 65536 ≤ 13000 then { s with mgmt := { s.mgmt with plimit := v % 65536 } } else s
  else if off = 0x20 then { s with mgmt := { s.mgmt with evdone := BitVec.ofNat 32 v } }
  else if off = 0x28 then s.doorbell false v
  else s

/-- A write of the connector's mailbox (26 R449): the island has power whatever the package's state. A DH64-PK has no such connector. -/
def State.wrConn (s : State) (off size v : Nat) : State :=
  if !s.mgmt.md ∨ !([1, 2, 4, 8].contains size) ∨ off % size ≠ 0 then s
  else if 0x1000 ≤ off ∧ off < 0x2000 then s.wrMbox true (off - 0x1000) size v
  else if size = 8 ∧ off = 0x28 then s.doorbell true v
  else s

/-- A write of `size` bytes to a register (25 R459): except in the window and pattern tables and the mailbox, only aligned 8-byte
writes are taken. -/
def State.regWrite (s : State) (id inst off size v src w : Nat) : State :=
  if id = 2 ∧ inst < 64 ∧ (s.die inst).st ≠ .live then s.dieFencedAnswer inst src
  else if !([1, 2, 4, 8].contains size) ∨ off % size ≠ 0 ∨ blockSize id ≤ off ∨ blockInst id ≤ inst then s
  else match id with
    | 5 => s.wrFw off size v
    | 6 => s.wrSpt off size v
    | 13 => s.wrMgmt off size v
    | id =>
      if size ≠ 8 then s
      else match id with
        | 1 => s.wrIdent off v
        | 2 => s.wrPort inst off v src w
        | 3 => s.wrArbiter off v
        | 4 => if off = 0 then s.owe (.tgaLimitWrite (BitVec.ofNat 64 v)) else s
        | 7 => s.wrRbd inst off v
        | 9 => s.wrTrapRec off v
        | 10 => s.wrContain off v
        | 11 => s.wrSalder off v
        | 12 => s.wrIntr off v
        | _ => s

/-- The write that n bytes at an address begin with: as many bytes of 1, 2, 4 or 8 as their alignment admits (log 23). -/
def regUnit (pa n : Nat) : Nat :=
  if pa % 8 = 0 ∧ 8 ≤ n then 8 else if pa % 4 = 0 ∧ 4 ≤ n then 4 else if pa % 2 = 0 ∧ 2 ≤ n then 2 else 1

/-- A store of bytes with their poison marks at an address of the HXD register space, from a requester: one write for each unit, none for
a poisoned one (20 R379). -/
def State.regStoreP (s : State) (src w : Nat) : Nat → Nat → List PByte → State
  | 0, _, _ => s
  | _, _, [] => s
  | f + 1, pa, bs =>
    let n := regUnit pa bs.length
    let u := bs.take n
    let o := pa - Config.capBase
    let p := blockPlace (o / 0x100_0000) (o % 0x100_0000)
    let s := if anyPoison u then s else s.regWrite (o / 0x100_0000) p.1 p.2 n (leNat (bytesOf u)) src w
    s.regStoreP src w f (pa + n) (bs.drop n)

/-- A store of good bytes there. -/
def State.regStore (s : State) (pa : Nat) (bs : List Byte) (src w : Nat) : State :=
  s.regStoreP src w bs.length pa (bs.map (fun b => (b, false)))

/-- The register write that a step completes (05 R81, 12 R254, 22 R421, 04 R79, 12 R259): block, instance, offset. -/
def stepWrites : Instr → Option (Nat × Nat × Nat)
  | .rbDead k _ => some (7, k, 0)
  | .rbBkrel k _ => some (7, k, 0x30)
  | .fwEnable n _ => some (5, 0, 64 * n + 0x20)
  | .fwDisable n _ => some (5, 0, 64 * n + 0x20)
  | .sptEnable n _ => some (6, 0, 32 * n)
  | .sptDisable n _ => some (6, 0, 32 * n)
  | _ => none

/-- A store of n bytes at an address, by request `id`, is not complete: a step that performs its write is still owed, or its submission is
held. -/
def State.storeOpen (s : State) (id pa n : Nat) : Bool :=
  s.submitHeld id || s.inflight.any (fun i => match stepWrites i with
    | some (b, inst, off) =>
      let a := Config.capBase + 0x100_0000 * b + (if blockInst b = 1 then 0 else Config.blockStride b * inst) + off
      decide (pa ≤ a) && decide (a < pa + n)
    | none => false)

/-- REGISTER_WRITE (25 R459), by the host or an application core, where they reach the package (26 R450, R453), or at the connector's mailbox
(26 R449). -/
def execRegisterWrite (blk : Block) (inst off size : Nat) (v : Word) (s : State) : Host.Outcome State Fault Refusal :=
  .next (if blk = .connector then s.wrConn off size v.toNat
    else if !s.hostUp then s else s.regWrite (blockId blk) inst off size v.toNat s.hostSrc 0)

end Sys2Proof.Machine
end

