-- ==== Sys2Proof/Machine/Sync.lean ====
section
/-! DEFINITION. Sync.lean: the synchronisation, launch, tag and bucket instructions of the asynchronous slot AX (16 R311 to
R330, 22 R418 to R420). Signals are withheld; stitching instructions are checked here and act at the stitch point. -/

namespace Sys2Proof.Machine

/-- A signal to an object at an address: checked, translated, withheld (16 R311, R319). -/
def State.signal (s : State) (k : ReqK) (a : Word) (align : Nat) : Except Stop State := do
  objectCheck s a align
  let x ← s.xlateAt a 0 .write none
  .ok (s.withhold { s.newReq k a 0 0 0 with tag := 0, zero := false } x)

/-- CNTX (16 R321). -/
def effCntx (s1 s2 : BitVec 6) (s : State) : Except Stop State := do
  let a ← s.rdS 57 s1.toNat
  let t ← s.rdS 58 s2.toNat
  objectCheck s a 8
  if t.toNat < 2 ^ 48 then s.signal (.cpost t.toNat) a 8 else illop 0x805

/-- CNTA (16 R321). -/
def effCnta (s1 s2 : BitVec 6) (s : State) : Except Stop State := do
  let a ← s.rdS 57 s1.toNat
  let n ← s.rdS 58 s2.toNat
  s.signal (.carrive n 0) a 8

/-- The core of an event target, or the leader of the pair that holds it (16 R322). -/
def eventCore (paired : Bool) (x y : Nat) : Nat := if paired then coreAt (x / 2 * 2) y else coreAt x y

/-- The targets of an EVSIG at (x, y) (16 R322). -/
def eventTargets (l : Launch) (paired : Bool) (x y : Nat) : Scope → List Nat
  | .core => [eventCore paired x y]
  | .cluster => l.cores.filter (fun c => coreCluster c == coreCluster (coreAt x y))
  | .die => l.cores.filter (fun c => coreDie c == coreDie (coreAt x y))
  | .sub lw lh => l.cores.filter (fun c => coreX c / 2 ^ lw.toNat == x / 2 ^ lw.toNat && coreY c / 2 ^ lh.toNat == y / 2 ^ lh.toNat)
  | .launch | .package => l.cores

/-- EVSIG (16 R322): a mask of 0 sends nothing. -/
def effEvsig (s1 s2 : BitVec 6) (sc : Scope) (s : State) : Except Stop State := do
  notOnNmv s
  let t ← s.rdS 57 s1.toNat
  let m ← s.rdS 58 s2.toNat
  let x := fld t.toNat 0 5
  let y := fld t.toNat 16 6
  match s.me.rid.bind (look s.launches) with
  | none => .ok s
  | some l =>
    if sc ≠ .launch ∧ !l.cores.contains (coreAt x y) then illop 0x800
    else if (match sc with | .sub lw lh => s.subTooLarge lw.toNat lh.toNat | _ => false) then illop 0x704
    else
      let mask : BitVec 16 := m.setWidth 16
      if mask = 0 then .ok s
      else .ok (s.withhold (s.newReq (.event (eventTargets l s.me.paired x y sc) mask) 0 0 0 0) (.pa 0))

/-- JRAISE (16 R324, R318): an amount of 0 sends nothing. -/
def effJraise (s1 s2 : BitVec 6) (s : State) : Except Stop State := do
  let a ← s.rdS 57 s1.toNat
  let n ← s.rdS 58 s2.toNat
  objectCheck s a 64
  let n := n.toNat % 2 ^ 32
  if n = 0 then .ok s else s.signal (.jraise n (s.me.posted.contains a.toNat)) a 64

/-- JDONE (16 R324): the JCB joins the context's posted list, the last 8 (16 R318). -/
def effJdone (s1 : BitVec 6) (s : State) : Except Stop State := do
  let a ← s.rdS 57 s1.toNat
  let s' ← s.signal .jdone a 64
  .ok (s'.upMe (fun k => { k with posted := (k.posted ++ [a.toNat]).drop (k.posted.length + 1 - 8) }))

/-- JFLAG (16 R324). -/
def effJflag (s1 s2 : BitVec 6) (s : State) : Except Stop State := do
  let a ← s.rdS 57 s1.toNat
  let f ← s.rdS 58 s2.toNat
  s.signal (.jflag (f.setWidth 6)) a 64

/-- Record what a stitching instruction will do at its stitch point (20 R380). -/
def State.atStitch (s : State) (o : StitchOp) : State := s.upMe (fun k => { k with stitchOp := some o })

/-- LNCH (16 R325). -/
def effLnch (s1 : BitVec 6) (s : State) : Except Stop State := do
  notOnNmv s
  let a ← s.rdS 57 s1.toNat
  aligned a 64
  .ok (s.atStitch (.lnch a))

/-- CANCEL (16 R326). -/
def effCancel (s1 : BitVec 6) (s : State) : Except Stop State := do
  notOnNmv s
  let t ← s.rdS 57 s1.toNat
  .ok (s.atStitch (.cancel (t.toNat % 2 ^ 32)))

/-- Whether a is reached from t by following PARENT one or more times (03 R50); a depth is at most 15. -/
def State.descends (s : State) : Nat → Nat → Nat → Bool
  | 0, _, _ => false
  | fuel + 1, t, a =>
    if t = 0 ∨ (s.tag t).st = .free then false
    else (s.tag t).parent == a || s.descends fuel (s.tag t).parent a

/-- A tag is the given one or a descendant of it (03 R50). -/
def State.within (s : State) (t a : Nat) : Bool := t == a || s.descends 16 t a

/-- TAGNEW (16 R327). Whether the parent is the context's tag or below it is for the allocator to say (03 R50). -/
def effTagnew (sd s1 s2 : BitVec 6) (s : State) : Except Stop State := do
  notOnNmv s
  let p ← s.rdS 57 s1.toNat
  let q ← s.rdS 58 s2.toNat
  let p := p.toNat % 4096
  .ok (s.atStitch (.tagnew sd p (q.toNat % 2 ^ 24)))

/-- TAGRET (16 R328). Whether the tag is below the context's is for the allocator to say (03 R50). -/
def effTagret (s1 : BitVec 6) (s : State) : Except Stop State := do
  notOnNmv s
  let t ← s.rdS 57 s1.toNat
  let t := t.toNat % 4096
  let c := s.me.ctag.toNat
  if t = 0 ∨ t = 4095 ∨ t = c then illop 0x803 else .ok (s.atStitch (.tagret t))

/-- TAGQ (16 R329): the entry comes through the return queue, to no latch. -/
def effTagq (sd s1 : BitVec 6) (s : State) : Except Stop State := do
  let t ← s.rdS 57 s1.toNat
  s.me.rqRoom
  let id := s.nextId
  .ok (((s.addReq (s.newReq (.tagq (t.toNat % 4096)) 0 0 0 0)).upMe (fun k =>
    k.queueRq 40 (destS sd false) none 0 .wait 0)).owe (.tagqAnswer id))

/-- BKDEF (16 R330): its address is translated at issue as a core load's is. -/
def effBkdef (sd s1 : BitVec 6) (s : State) : Except Stop State := do
  notOnNmv s
  let a ← s.rdS 57 s1.toNat
  aligned a 64
  let x ← s.xlateAt a (s.resolve s.me a.toNat).1 .read none
  let s' := s.atStitch (.bkdef sd a)
  match x with
  | .pa _ => .ok s'
  | .page => .ok (s'.sendPage s.cur (engOf s.cur) false a)

/-- Handle of a bucket (16 R330). -/
def bucketHandle (stack b : Nat) : Nat := 2 ^ 27 * stack + b

/-- BKDONE (22 R419). -/
def effBkdone (s1 : BitVec 6) (s : State) : Except Stop State := do
  let h ← s.rdS 57 s1.toNat
  match s.me.share with
  | none => illop 0x708
  | some sh => if h.toNat = bucketHandle sh.stack sh.bucket ∧ !sh.done then .ok (s.atStitch .bkdone) else illop 0x708

/-- PUSH (22 R420): its descriptor's address must be a multiple of 64 in the local store. -/
def effPush (sd s1 s2 s3 : BitVec 6) (s : State) : Except Stop State := do
  let a ← s.rdS 57 s1.toNat
  let d ← s.rdS 58 s2.toNat
  let n ← s.rdS 59 s3.toNat
  let d := d.toNat % 2 ^ 18
  if d % 64 = 0 then .ok (s.atStitch (.push sd a (BitVec.ofNat 64 d) (n.toNat % 2 ^ 32))) else illop 0x700

/-- CNTX, issued. -/
def execCntx (s1 s2 : BitVec 6) (s : State) : Host.Outcome State Fault Refusal := runSlot (effCntx s1 s2 s) s
/-- CNTA, issued. -/
def execCnta (s1 s2 : BitVec 6) (s : State) : Host.Outcome State Fault Refusal := runSlot (effCnta s1 s2 s) s
/-- EVSIG, issued. -/
def execEvsig (s1 s2 : BitVec 6) (sc : Scope) (s : State) : Host.Outcome State Fault Refusal := runSlot (effEvsig s1 s2 sc s) s
/-- JRAISE, issued. -/
def execJraise (s1 s2 : BitVec 6) (s : State) : Host.Outcome State Fault Refusal := runSlot (effJraise s1 s2 s) s
/-- JDONE, issued. -/
def execJdone (s1 : BitVec 6) (s : State) : Host.Outcome State Fault Refusal := runSlot (effJdone s1 s) s
/-- JFLAG, issued. -/
def execJflag (s1 s2 : BitVec 6) (s : State) : Host.Outcome State Fault Refusal := runSlot (effJflag s1 s2 s) s
/-- LNCH, issued. -/
def execLnch (s1 : BitVec 6) (s : State) : Host.Outcome State Fault Refusal := runSlot (effLnch s1 s) s
/-- CANCEL, issued. -/
def execCancel (s1 : BitVec 6) (s : State) : Host.Outcome State Fault Refusal := runSlot (effCancel s1 s) s
/-- TAGNEW, issued. -/
def execTagnew (sd s1 s2 : BitVec 6) (s : State) : Host.Outcome State Fault Refusal := runSlot (effTagnew sd s1 s2 s) s
/-- TAGRET, issued. -/
def execTagret (s1 : BitVec 6) (s : State) : Host.Outcome State Fault Refusal := runSlot (effTagret s1 s) s
/-- TAGQ, issued. -/
def execTagq (sd s1 : BitVec 6) (s : State) : Host.Outcome State Fault Refusal := runSlot (effTagq sd s1 s) s
/-- BKDEF, issued. -/
def execBkdef (sd s1 : BitVec 6) (s : State) : Host.Outcome State Fault Refusal := runSlot (effBkdef sd s1 s) s
/-- BKDONE, issued. -/
def execBkdone (s1 : BitVec 6) (s : State) : Host.Outcome State Fault Refusal := runSlot (effBkdone s1 s) s
/-- PUSH, issued. -/
def execPush (sd s1 s2 s3 : BitVec 6) (s : State) : Host.Outcome State Fault Refusal := runSlot (effPush sd s1 s2 s3 s) s

end Sys2Proof.Machine
end

