-- ==== Sys2Proof/Machine/Request.lean ====
section
/-! DEFINITION. Request.lean: requests between agents: the context a reply goes to, running or switched out (18 R365, R366), a
broken promise (13 R281), what happens to requests of a tag that is not LIVE (03 R53), the release of the store-withholding
buffer (20 R380, 13 R265), and writes at a physical or scratch address. -/

namespace Sys2Proof.Machine

/-- Where a context is. -/
inductive CtxAt where
  | running
  | saved (slot : Nat)
  | gone
  deriving DecidableEq, Repr

/-- The context that launch or share `rid` has on core c (05 R95): on the core, in a save slot, or stopped. -/
def State.ctxAt (s : State) (c : Nat) (rid : Option Nat) : CtxAt :=
  let k := s.core c
  if rid.isSome ∧ k.rid = rid ∧ k.phase ≠ .ended then .running
  else match s.saved.find? (fun e => e.2.core == c && e.2.k.rid == rid && rid.isSome) with
    | some e => .saved e.1
    | none => .gone

/-- Log an entry in the mailbox of a save slot (18 R365). -/
def State.logSlot (s : State) (slot kind : Nat) (v : Word) : State := s.upMail slot (fun m => m.log kind v)

/-- Change a context wherever it is. -/
def State.upCtx (s : State) (c : Nat) (rid : Option Nat) (f : Core → Core) : State :=
  match s.ctxAt c rid with
  | .running => s.upCore c f
  | .saved n => match look s.saved n with
    | some x => { s with saved := put s.saved n { x with k := f x.k } }
    | none => s
  | .gone => s

/-- A context's core state, wherever it is. -/
def State.ctxCore (s : State) (c : Nat) (rid : Option Nat) : Option Core :=
  match s.ctxAt c rid with
  | .running => some (s.core c)
  | .saved n => (look s.saved n).map (fun x => x.k)
  | .gone => none

/-- Raise a cause on a context, to be taken at a boundary (18 R358); for a switched-out context it is logged in the mailbox
under a kind, or dropped (18 R365). -/
def State.raise (s : State) (c : Nat) (rid : Option Nat) (p : PCause) (log : Option (Nat × Word)) : State :=
  match s.ctxAt c rid with
  | .running => s.upCore c (fun k => { k with causes := k.causes ++ [p] })
  | .saved n => match log with
    | some (kind, v) => s.logSlot n kind v
    | none => s
  | .gone => s

/-- Change the result numbered `seq` of a core, in flight or in the return queue of a freeze (18 R342), whose frame follows. -/
def Core.upPend (k : Core) (seq : Nat) (f : Pend → Pend) : Core :=
  let g := fun (p : Pend) => if p.seq = seq then f p else p
  ({ k with pend := k.pend.map g, mon := k.mon.map (fun m => { m with rq := m.rq.map g }) } : Core).syncRq

/-- Raise a cause on a context that keeps it wherever it is (13 R265). -/
def State.raiseKept (s : State) (c : Nat) (rid : Option Nat) (p : PCause) : State :=
  s.upCtx c rid (fun k => { k with causes := k.causes ++ [p] })

/-- The result numbered `seq` of a core. -/
def Core.pendAt (k : Core) (seq : Nat) : Option Pend :=
  match k.pend.find? (fun p => p.seq == seq) with
  | some p => some p
  | none => k.mon.bind (fun m => m.rq.find? (fun p => p.seq == seq))

/-- Detail word of PROMISE (13 R281). -/
def promiseDetail (e : Eng) (cd : Nat) : BitVec 32 :=
  BitVec.ofNat 32 (2 ^ 24 * cd + 2 ^ 20 * e.eng
    + 2 ^ 12 * (if cd = 0x10 then (e.page.map (fun p => p.2.code)).getD 0 else 0) + e.seqno % 4096)

/-- Break a promise (13 R281): PROMISE is raised on the core, or logged for a switched-out context; LATE on an NMV core only
sends a record (22 R417). -/
def State.breakPromise (s : State) (e : Eng) (cd : Nat) : State :=
  let d := promiseDetail e cd
  if isNmv e.core ∧ cd = 0x10 then
    if s.ctxAt e.core e.rid = .gone then s
    else s.emit false (.core e.core) { code := Cause.promise.code, tag := (s.core e.core).ctag.toNat, detail := d.toNat }
  else s.raise e.core e.rid (.promise e.seqno d) (some (3, d.setWidth 64))

/-- Page requests of an engine request, which end with it. -/
def State.dropPages (s : State) (e : Eng) : State :=
  match e.page with
  | some (id, _) => s.dropReq id
  | none => s

/-- An engine request stops with a fault: its promise is broken with a cause detail, and it is over (13 R281). -/
def State.engFault (s : State) (id : Nat) (cd : Nat) : State :=
  match look s.engs id with
  | none => s
  | some e => { (s.dropPages e).breakPromise e cd with engs := del s.engs id }

/-- Whether requests under an owner tag are dropped where they are found (03 R53). -/
def State.tagDead (s : State) (t : Nat) : Bool := t != 0 && (s.tag t).st != .live

/-- A drop at TC tc under key t: the counts that follow, whether a TAGDROP record goes out, at most once in 65,536 TC cycles, how
many of the key were dropped in the last 65,536, and the TC of the record that counts this one (18 R357). -/
def dropNote (l : List (Nat × Nat × List Nat)) (t tc : Nat) : List (Nat × Nat × List Nat) × Bool × Nat × Nat :=
  let rest := l.filter (fun e => e.1 != t)
  match l.find? (fun e => e.1 == t) with
  | none => ((t, tc, [tc]) :: rest, true, 1, tc)
  | some (_, at_, ds) =>
    let ds := ds.filter (fun d => decide (tc < d + 65536)) ++ [tc]
    if at_ + 65536 ≤ tc then ((t, tc, ds) :: rest, true, ds.length, tc) else ((t, at_, ds) :: rest, false, ds.length, at_)

/-- A drop within the period of a TAGDROP of TC tc that still waits at the HXD is counted in its detail word (18 R357). -/
def State.countDrop (s : State) (src : RecSrc) (where_ t n tc : Nat) : State :=
  let w := (s.mkRec false src { code := 0x50, tag := t }).w0
  s.upHxd (fun h => { h with laneN := { h.laneN with waiting := h.laneN.waiting.map (fun r =>
    if r.w0 = w ∧ r.w1.toNat % 4 = where_ ∧ r.tc.toNat = tc then
      { r with w1 := BitVec.ofNat 64 (r.w1.toNat % 2 ^ 16 + 2 ^ 16 * Nat.min 65535 n + r.w1.toNat / 2 ^ 32 * 2 ^ 32) } else r) } })

/-- A request of tag t is dropped at a place (03 R53, 18 R357), with what `dropNote` says of it. -/
def State.noteDrop (s : State) (src : RecSrc) (where_ t addr : Nat) (r : Bool × Nat × Nat) : State :=
  if r.1 then s.emit false src { code := 0x50, tag := t, detail := where_ + 2 ^ 16 * Nat.min 65535 r.2.1, addr := addr }
  else s.countDrop src where_ t r.2.1 r.2.2

/-- A request of tag t is dropped at the RBD of stack k. -/
def State.tagDrop (s : State) (k t addr : Nat) : State :=
  let r := dropNote (s.stack k).drops t s.tc
  (s.upStack k (fun x => { x with drops := r.1 })).noteDrop (.rbd k) 2 t addr r.2

/-- The same at compute die d: in its cache (0), or at an engine of it (1). -/
def State.tagDropDie (s : State) (d where_ t addr : Nat) : State :=
  let r := dropNote (s.die d).drops (t + 4096 * where_) s.tc
  (s.upDie d (fun x => { x with drops := r.1 })).noteDrop (.lc d) where_ t addr r.2

/-- Guest lines of a core's die are dropped (11 R245). An NMV core has none. -/
def State.dropLines (s : State) (c : Nat) : State :=
  if isNmv c then s else s.upDie (coreDie c) (fun d => { d with guest := [] })

/-- An acquire of a core (15 R300, R303): the lines that its die holds are dropped. A PHASE acquires once every load issued before it has read
its data (R300); a wait or a start of a task acquires in the cycle in which it completes (R303), and a load issued before it that has not read
its data reads after it (log 110). -/
def State.acquire (s : State) (c : Nat) : State := s.dropLines c

/-- Key of a guest line: tag and line (03 R46). -/
def guestKey (tag line : Nat) : Nat := tag * 2 ^ 49 + line

/-- The die of a writing core gives up its lines of what it has written under a tag, those too of tags whose reads find the bytes there (03
R46, 15 R309), so that its cores read their own writes (15 R302). -/
def State.dropGuest (s : State) (c tag pa n : Nat) : State :=
  if isNmv c then s
  else s.upDie (coreDie c) (fun d => { d with
    guest := d.guest.filter (fun e =>
      !((touchedUnits pa n).contains (e.1 % 2 ^ 49) && s.reaches [] tag pa false 17 (e.1 / 2 ^ 49))) })

/-- Whether a die has a CACHE slice (11 R243). -/
def State.hasCache (s : State) (d : Nat) : Bool :=
  (upFrom 0 8).any (fun i => (upFrom 0 32).any (fun n => ((s.cluster (8 * d + i)).slice n).mode == .cache))

/-- Whether a core's die may hold lines of a stack as guest lines (11 R243 to R245, 15 R309): those of other cells, lines of a
non-zero tag, and view lines, in a die with a CACHE slice; a line of a FREE or DRAINING tag answers nothing (22 R424). -/
def State.guestable (s : State) (c tag pa : Nat) : Bool :=
  !isNmv c && s.hasCache (coreDie c) && (tag == 0 || (s.tag tag).st == .live || (s.tag tag).st == .held) && (match region pa with
    | .ordinary => tag != 0 || dieCell (coreDie c) != paStack pa
    | .view => true
    | _ => false)

/-- Write bytes with their addresses to the scratch of a cluster: those whose slice is SCRATCH (11 R240); a local store takes
all. -/
def State.scratchPut (s : State) (c owner : Nat) (bs : List (Nat × Byte)) : State :=
  if isNmv c then
    let us := (bs.map (fun b => b.1 / 128)).eraseDups
    let full := us.filter (fun u => (upFrom (128 * u) 128).all (fun a => bs.any (fun b => b.1 == a)))
    s.upCore c (fun k => { k with
      local_ := bs.foldl (fun m b => m.set b.1 b.2) k.local_, badLocal := k.badLocal.filter (fun u => !full.contains u) })
  else
    let cl := coreCluster c
    let k := s.cluster cl
    let bs := bs.filter (fun b => k.isScratch b.1)
    let us := (bs.map (fun b => b.1 / 128)).eraseDups
    let full := us.filter (fun u => (upFrom (128 * u) 128).all (fun a => bs.any (fun b => b.1 == a)))
    s.setCluster cl { k with
      mem := bs.foldl (fun m b => m.set b.1 b.2) k.mem
      owner := us.foldl (fun o u => if owner = 0 then del o u else put o u owner) k.owner
      poison := k.poison.filter (fun u => !full.contains u) }

/-- Insert an entry in a FIFO slice (11 R241): in order of arrival, those of one core cycle by core within cluster and then the copy
engine. -/
def fifoInsert (e : FifoEnt) : List FifoEnt → List FifoEnt
  | [] => [e]
  | y :: ys => if y.tc = e.tc ∧ e.by_ < y.by_ then e :: y :: ys else y :: fifoInsert e ys

/-- Append an entry to a FIFO slice of a cluster (11 R241), from a core of it, or the copy engine as 4: none where it is full. -/
def State.fifoPut (s : State) (cl n who owner : Nat) (v : Vec) (poison : Bool) : Option State :=
  let k := s.cluster cl
  let x := k.slice n
  if fifoMax ≤ x.fifo.length then none
  else some (s.setCluster cl { k with slices := put k.slices n { x with fifo := fifoInsert ⟨v, poison, s.tc, who, owner⟩ x.fifo } })

/-- The step that performs a request at its destination. -/
def ReqK.stepOf (id : Nat) : ReqK → List Instr
  | .load _ => [.globalReadRequest (.core id)]
  | .store _ => [.globalWriteRequest (.core id)]
  | .atomic _ _ _ _ _ => [.atomicPerform id]
  | .gacc _ => [.gaccArrival (.own id)]
  | .cpost _ => [.counterPost id]
  | .carrive _ _ => [.counterArrive id]
  | .jdone => [.jcbCompletion id]
  | .jraise _ _ => [.jcbRaise id]
  | .jflag _ => [.jcbFlag id]
  | .jpost _ _ => [.jcbCompletion id]
  | .event ts m => ts.map (fun c => .eventArrival c m.toNat)
  | .tagnew _ _ => [.tagnewRequest id]
  | .tagret _ => [.tagretApply id]
  | .tagq _ => [.tagqAnswer id]
  | .bkdef => [.bkdefRequest id]
  | .lnch | .cancel _ | .page _ _ _ => []

/-- A request leaves the core: it is under way, and the step that performs it is owed. -/
def State.send (s : State) (r : Req) : State :=
  let id := s.nextId
  if s.unmatched r.core r.rid r.iss then s.addReq { r with tc := s.tc, left := false }
  else (r.k.stepOf id).foldl State.oweEach (s.addReq { r with tc := s.tc })

/-- Requests of a pair whose cycle has matched leave it (07 R152). -/
def State.sendMatched (s : State) (c : Nat) : State :=
  if !(s.core c).paired then s
  else s.reqs.foldl (fun s e =>
    if e.2.left ∨ e.2.core ≠ c ∨ s.unmatched c e.2.rid e.2.iss = true then s
    else (e.2.k.stepOf e.1).foldl State.oweEach (s.upReq e.1 (fun r => { r with left := true }))) s

/-- Kind of access of a request, for its translation. -/
def ReqK.acc : ReqK → Acc
  | .gacc _ => .gacc
  | .load _ => .read
  | _ => .write

/-- What the head of the store-withholding buffer does when it may leave. -/
inductive Leave where
  | gone (s : State)                -- it has left
  | stay (s : State)                -- it waits
  deriving DecidableEq, Repr

/-- A scratch write leaves the buffer of core c and meets its slice as it now is (11 R242): a vector is an entry of a FIFO slice. It was
checked wholly at issue and faults no more (13 R266): bytes whose slice has left SCRATCH since are lost with its contents (log 42). -/
def State.leaveScratch (s : State) (c a : Nat) (bs : List (Nat × Byte)) (vec : Option Vec) : Leave :=
  let k := s.cluster (coreCluster c)
  let own := (s.core c).ctag.toNat
  if isNmv c then .gone (s.scratchPut c own bs)
  else match vec, (k.slice (sliceOf a)).mode with
    | some v, .fifo => match s.fifoPut (coreCluster c) (sliceOf a) (coreInCluster c) own v false with
      | some s => .gone s
      | none => .stay s
    | _, _ => .gone (s.scratchPut c own bs)

/-- A page request of a core's present context for an access in the page of an address is outstanding. -/
def State.pageAsked (s : State) (c : Nat) (va : Word) : Bool :=
  s.reqs.any (fun e => e.2.core == c && e.2.rid == (s.core c).rid && e.2.va.toNat / 4096 == va.toNat / 4096 && (match e.2.k with
    | .page true _ .core => true
    | _ => false))

/-- Let one entry of core c leave its buffer (20 R380, 13 R265): scratch and FIFO writes reach their slice; a request is
translated, and one that no page request can help is an imprecise fault; one that a page request can waits at the head. -/
def State.leave (s : State) (c : Nat) : SbEnt → Leave
  | .scratch a bs v _ => s.leaveScratch c a bs v
  | .req r =>
    if r.done then .gone (s.send r)
    else match s.xlate (engOf c) r.va.toNat r.tag r.k.acc with
      | .ok pa => .gone (s.send { r with pa := pa, done := true })
      | .miss => .stay (s.owe (.atsTranslationReply (engOf c) r.va.toNat))
      | .fault rs =>
        if rs.resolvable then
          if pageLimit ≤ s.pagesOut c ∨ s.pageAsked c r.va = true then .stay s else .stay (s.sendPage c (engOf c) true r.va)
        else .gone (s.upCore c (fun k => { k with causes := k.causes ++ [.weak (pagef rs r.va) r] }))

/-- A write that landed in an earlier cycle differs on the follower (07 R152). -/
def Core.mismatched (k : Core) : Bool := match k.pairBad with | some n => decide (n < k.ic) | none => false

/-- Let the entries that are leaving a core's buffer leave, in issue order, as far as they can (20 R380): in a pair, none after a cycle that
did not match (07 R152). -/
def State.releaseAll (s : State) (c : Nat) : Nat → State
  | 0 => s
  | n + 1 => if (s.core c).mismatched then s else match (s.core c).sbuf with
    | [] => s.upCore c (fun k => { k with release := 0 })
    | e :: es => match s.leave c e with
      | .stay s => s
      | .gone s => (s.upCore c (fun k => { k with sbuf := es, release := k.release - 1 })).releaseAll c n

/-- Write the bytes of one piece at a physical address, and mark its units as the source's marks say (20 R378). -/
def State.writePiece (s : State) (owner tag pa : Nat) (zero : Bool) (bs : List PByte) : Except (BitVec 32) State :=
  match s.write owner tag pa zero (bytesOf bs) with
  | .error d => .error d
  | .ok s => .ok (((bs.zipIdx pa).filter (fun e => e.1.2)).foldl (fun s e => s.poisonUnit tag e.2) s)

/-- Write bytes at a scratch address of a cluster as an engine does (13 R278): R240 is checked for the whole range; none where
it fails. -/
def State.engScratch (s : State) (cl owner a : Nat) (bs : List PByte) : Option State :=
  if ((s.cluster cl).badRange a bs.length).isSome then none
  else
    let s := s.scratchWrite cl owner a (bytesOf bs)
    let us := (((bs.zipIdx a).filter (fun e => e.1.2)).map (fun e => e.2 / 128)).eraseDups
    let k := s.cluster cl
    some (s.setCluster cl { k with poison := us.foldl addNew k.poison })

/-- A read of n bytes at a virtual address by die d, or by no die, as far as they are translated (11 R244, 15 R298). -/
def State.recallVa (s : State) (e : Engine) (tag va n : Nat) (zero : Bool) (d : Option Nat) : State :=
  (pieces va n).foldl (fun s p => match s.xlate e (p.1 % 2 ^ 64) tag .read with
    | .ok pa => s.recallRead pa p.2 tag zero d
    | _ => s) s

end Sys2Proof.Machine
end

