-- ==== Sys2Proof/Machine/Issue.lean ====
section
/-! DEFINITION. Issue.lean: the issue of one bundle (07 R133 to R146): fetch and checks (06 R104, R126), the eight slots over one
reading of the state, the landing of results (07 R135, R137), and the end of the bundle: registers written in the next cycle,
branches, loops, waits, stitches. -/

namespace Sys2Proof.Machine

/-- The effect of a slot instruction; a step stands in no bundle. -/
def slotEff : Instr → State → Except Stop State
  | .j x0 => effJ x0
  | .jf x0 x1 x2 => effJf x0 x1 x2
  | .jp x0 x1 x2 => effJp x0 x1 x2
  | .call x0 => effCall x0
  | .ret => effRet
  | .loopImm x0 x1 => effLoopImm x0 x1
  | .loopReg x0 x1 => effLoopReg x0 x1
  | .lexit x0 x1 => effLexit x0 x1
  | .exit => effExit
  | .waitt x0 => effWaitt x0
  | .waiteImm x0 => effWaiteImm x0
  | .waiteReg x0 => effWaiteReg x0
  | .waitc x0 x1 => effWaitc x0 x1
  | .trap x0 => effTrap x0
  | .rett => effRett
  | .halt => effHalt
  | .add x0 => effAdd x0
  | .sub x0 => effSub x0
  | .addi x0 => effAddi x0
  | .addsh x0 x1 => effAddsh x0 x1
  | .mul x0 => effMul x0
  | .mulh x0 => effMulh x0
  | .mulhn x0 => effMulhn x0
  | .and x0 => effAnd x0
  | .or x0 => effOr x0
  | .xor x0 => effXor x0
  | .andn x0 => effAndn x0
  | .shl x0 => effShl x0
  | .shr x0 => effShr x0
  | .shra x0 => effShra x0
  | .rotr x0 => effRotr x0
  | .min x0 => effMin x0
  | .max x0 => effMax x0
  | .minn x0 => effMinn x0
  | .maxn x0 => effMaxn x0
  | .clz x0 => effClz x0
  | .ctz x0 => effCtz x0
  | .popc x0 => effPopc x0
  | .sext x0 x1 => effSext x0 x1
  | .zext x0 x1 => effZext x0 x1
  | .li x0 x1 => effLi x0 x1
  | .lih x0 => effLih x0
  | .mov x0 => effMov x0
  | .sel x0 x1 => effSel x0 x1
  | .cmp x0 x1 x2 x3 x4 x5 => effCmp x0 x1 x2 x3 x4 x5
  | .rdix x0 x1 => effRdix x0 x1
  | .rdtc x0 => effRdtc x0
  | .myxy x0 x1 => effMyxy x0 x1
  | .rdsys x0 x1 => effRdsys x0 x1
  | .wrsys x0 x1 x2 => effWrsys x0 x1 x2
  | .tfld x0 x1 x2 => effTfld x0 x1 x2
  | .tfst x0 x1 x2 => effTfst x0 x1 x2
  | .vadd x0 => effVadd x0
  | .vsub x0 => effVsub x0
  | .vmul x0 => effVmul x0
  | .vfma x0 => effVfma x0
  | .vfms x0 => effVfms x0
  | .vfnma x0 => effVfnma x0
  | .vmin x0 x1 => effVmin x0 x1
  | .vmax x0 x1 => effVmax x0 x1
  | .vabs x0 => effVabs x0
  | .vneg x0 => effVneg x0
  | .vrcp x0 => effVrcp x0
  | .vrsq x0 => effVrsq x0
  | .vsqrt x0 x1 => effVsqrt x0 x1
  | .vexp2 x0 => effVexp2 x0
  | .vlog2 x0 => effVlog2 x0
  | .vsigm x0 => effVsigm x0
  | .vtanh x0 => effVtanh x0
  | .vfcls x0 => effVfcls x0
  | .vcvt x0 x1 x2 => effVcvt x0 x1 x2
  | .vqnt x0 => effVqnt x0
  | .vdqnt x0 => effVdqnt x0
  | .vsrnd x0 => effVsrnd x0
  | .vamax x0 x1 x2 => effVamax x0 x1 x2
  | .vmomq x0 x1 x2 => effVmomq x0 x1 x2
  | .vmomd x0 x1 x2 x3 => effVmomd x0 x1 x2 x3
  | .vrand x0 x1 => effVrand x0 x1
  | .viadd x0 x1 => effViadd x0 x1
  | .visub x0 x1 => effVisub x0 x1
  | .vimul x0 x1 => effVimul x0 x1
  | .vimac x0 x1 => effVimac x0 x1
  | .vand x0 x1 x2 => effVand x0 x1 x2
  | .vor x0 x1 x2 => effVor x0 x1 x2
  | .vxor x0 x1 x2 => effVxor x0 x1 x2
  | .vshl x0 x1 => effVshl x0 x1
  | .vshr x0 x1 => effVshr x0 x1
  | .vshra x0 x1 => effVshra x0 x1
  | .vimin x0 => effVimin x0
  | .vimax x0 => effVimax x0
  | .vcmp x0 x1 x2 x3 x4 x5 x6 x7 => effVcmp x0 x1 x2 x3 x4 x5 x6 x7
  | .vsel x0 x1 x2 => effVsel x0 x1 x2
  | .vmov x0 x1 => effVmov x0 x1
  | .vbcst x0 x1 x2 => effVbcst x0 x1 x2
  | .vsplt x0 => effVsplt x0
  | .vperm x0 x1 x2 => effVperm x0 x1 x2
  | .vrotl x0 => effVrotl x0
  | .vpack x0 x1 => effVpack x0 x1
  | .vunpk x0 x1 => effVunpk x0 x1
  | .vextr x0 x1 x2 x3 x4 x5 => effVextr x0 x1 x2 x3 x4 x5
  | .vins x0 x1 x2 x3 => effVins x0 x1 x2 x3
  | .vrsum x0 => effVrsum x0
  | .vrmax x0 => effVrmax x0
  | .vrmin x0 => effVrmin x0
  | .vscan x0 => effVscan x0
  | .pand x0 => effPand x0
  | .por x0 => effPor x0
  | .pxor x0 => effPxor x0
  | .pnot x0 x1 x2 x3 x4 => effPnot x0 x1 x2 x3 x4
  | .pset x0 x1 x2 x3 x4 x5 => effPset x0 x1 x2 x3 x4 x5
  | .pcnt x0 x1 x2 x3 => effPcnt x0 x1 x2 x3
  | .pany x0 x1 x2 x3 => effPany x0 x1 x2 x3
  | .pall x0 x1 x2 x3 => effPall x0 x1 x2 x3
  | .mma x0 => effMma x0
  | .mmal x0 => effMmal x0
  | .azero x0 x1 => effAzero x0 x1
  | .anorm x0 x1 => effAnorm x0 x1
  | .ard x0 x1 x2 x3 => effArd x0 x1 x2 x3
  | .awr x0 x1 x2 x3 => effAwr x0 x1 x2 x3
  | .aalloc x0 x1 => effAalloc x0 x1
  | .afree x0 x1 => effAfree x0 x1
  | .astat x0 => effAstat x0
  | .ld x0 => effLd x0
  | .st x0 => effSt x0
  | .vld x0 => effVld x0
  | .vst x0 => effVst x0
  | .vlds x0 => effVlds x0
  | .vsts x0 => effVsts x0
  | .spl x0 x1 => effSpl x0 x1
  | .sps x0 x1 => effSps x0 x1
  | .gld x0 => effGld x0
  | .gst x0 => effGst x0
  | .ldx x0 x1 x2 x3 => effLdx x0 x1 x2 x3
  | .gacc x0 x1 x2 => effGacc x0 x1 x2
  | .atadd x0 => effAtadd x0
  | .atmin x0 => effAtmin x0
  | .atmax x0 => effAtmax x0
  | .atcas x0 => effAtcas x0
  | .atswp x0 => effAtswp x0
  | .phase x0 => effPhase x0
  | .fence x0 x1 => effFence x0 x1
  | .bkld x0 x1 => effBkld x0 x1
  | .bkst x0 x1 => effBkst x0 x1
  | .ctld x0 => effCtld x0
  | .cpy x0 x1 x2 x3 => effCpy x0 x1 x2 x3
  | .cpys x0 x1 x2 x3 => effCpys x0 x1 x2 x3
  | .slset x0 x1 => effSlset x0 x1
  | .sladv x0 x1 x2 => effSladv x0 x1 x2
  | .gth x0 x1 x2 x3 x4 => effGth x0 x1 x2 x3 x4
  | .slmode x0 x1 => effSlmode x0 x1
  | .cntx x0 x1 => effCntx x0 x1
  | .cnta x0 x1 => effCnta x0 x1
  | .evsig x0 x1 x2 => effEvsig x0 x1 x2
  | .jraise x0 x1 => effJraise x0 x1
  | .jdone x0 => effJdone x0
  | .jflag x0 x1 => effJflag x0 x1
  | .lnch x0 => effLnch x0
  | .cancel x0 => effCancel x0
  | .tagnew x0 x1 x2 => effTagnew x0 x1 x2
  | .tagret x0 => effTagret x0
  | .tagq x0 x1 => effTagq x0 x1
  | .bkdef x0 x1 => effBkdef x0 x1
  | .bkdone x0 => effBkdone x0
  | .push x0 x1 x2 x3 => effPush x0 x1 x2 x3
  | _ => fun s => .ok s

/-- Run the present slots in the order BR to AX (07 R133): all take effect, or the first that stops decides. -/
def runSlots : List (Nat × Instr) → State → Except Stop State
  | [], s => .ok s
  | (_, i) :: is, s => match slotEff i s with
    | .error e => .error e
    | .ok s => runSlots is s

/-- Write a system register at the end of its issue cycle (08 R174, R175, 16 R323): the read-only ones ignore it. -/
def Core.setSys (k : Core) (n : Nat) (x : Word) : Core :=
  match n with
  | 2 => { k with seed0 := x.setWidth 32 }
  | 3 => { k with seed1 := x.setWidth 32 }
  | 4 => { k with flags := x.setWidth 6 }
  | 8 => { k with mask := x.setWidth 16 }
  | _ => k

/-- One write made at the end of an issue cycle. -/
def Core.bWrite (k : Core) : BWrite → Core
  | .dead c => { k with dead := addNew k.dead c }
  | .sys n v => k.setSys n v
  | .spill off len v => k.spillWrite off ((vecBytes v).take len)
  | .tf w v => if tfReserved w then k else k.setTf w v.toNat
  | .alloc b n => { k with alloc := (upFrom b n).foldl addNew k.alloc }
  | .free b n => { k with alloc := k.alloc.filter (fun x => !(decide (b ≤ x) && decide (x < b + n))) }

/-- The writes of the bundle just issued. -/
def Core.bWrites (k : Core) : Core := { (k.bound.foldl Core.bWrite k) with bound := [] }

/-- Write the elements of a bank result (10 R230 to R233): under a mask. -/
def bankElems (es : List Word) (ws : List (Nat × Word)) (mask : Word) : List Word :=
  (es.zipIdx).map (fun (e, i) => match ws.find? (fun w => w.1 == i) with
    | some w => (e &&& ~~~mask) ||| (w.2 &&& mask)
    | none => e)

/-- Land one result of AZERO, ANORM or AWR (10 R223, 20 R382). -/
def Core.landBank (k : Core) (b : BankPend) : Core :=
  let k1 := k.shadowBank b.bank
  let k2 := k1.setBank b.bank (bankElems (k1.bank b.bank) b.elems b.mask)
  { k2 with flags := k2.flags ||| b.efl
            bad := if b.elems.length = 256 ∧ b.mask = BitVec.allOnes 64 then k2.bad else k1.bad }

/-- Accumulate the steps that an operation has read into bank d of its tile (10 R223, R225), shadowing it first (20 R382). A bank that fails
its check still does: its sum is of spoilt bits (20 R379). -/
def Core.settleBank (a : Core × MxOp) (d : Nat) : Core × MxOp :=
  let b := a.2.acb + d
  let k := a.1.shadowBank b
  let r := a.2.bankLand d (k.bank b)
  ({ (k.setBank b r.1) with bad := k.bad },
   { a.2 with rfl := a.2.rfl ||| r.2.1
              hr := (a.2.hr.toList ++ (r.2.2.map (fun e => 256 * d + e)).toList).min? })

/-- The banks hold every step that an operation has read (10 R227). -/
def Core.settleOp (k : Core) (m : MxOp) : Core × MxOp :=
  if m.read.isEmpty then (k, m)
  else
    let r := (upFrom 0 4).foldl Core.settleBank (k, m)
    (r.1, { r.2 with read := [], acc := m.got })

/-- The same for every operation in flight, in order of issue: the sequencer stands for a freeze or a switch-out, and the banks show its sums.
The engine goes on afterwards from what it had, so that no result that lands in between changes the final bits (10 R227). -/
def Core.settleMx (k : Core) : Core :=
  if k.mxBase.isSome || k.mx.all (fun m => m.read.isEmpty) then k else
  let r := k.mx.foldl (fun (a : Core × List MxOp) m =>
    let q := a.1.settleOp m
    (q.1, a.2 ++ [q.2])) (k, [])
  { r.1 with mx := r.2, mxBase := some (k.banks, k.mx) }

/-- Land a matrix operation, with the flags of its products and sums (10 R219, R224); HR is raised once for it, for the first element of
the lowest bank whose guard overflowed (10 R225). -/
def Core.landMx (k : Core) (m : MxOp) : Core :=
  let r := k.settleOp m
  let k := { r.1 with flags := r.1.flags ||| r.2.rfl }
  match r.2.hr with
  | some h => if (Config.profile m.prof).hrt then { k with causes := k.causes ++ [.hr (BitVec.ofNat 32 (m.acb + h / 256 + 2 ^ 7 * (h % 256)))] } else k
  | none => k

/-- Everything that becomes readable in the issue cycle about to begin (07 R135, R137, 10 R224): matrix operations, bank results,
then results in the order of issue. In the monitor only its own results land (18 R349). -/
def Core.landAll (k : Core) : Core :=
  let due := fun (p : Pend) => decide (p.due ≤ k.ic)
  let ps := k.pend.filter due
  let k1 : Core := { k with pend := k.pend.filter (fun p => !due p) }
  if k.mon.isSome then ps.foldl Core.land k1
  else
    let ms := k1.mx.filter (fun m => decide (m.due ≤ k1.ic))
    let bs := k1.bpend.filter (fun b => decide (b.due ≤ k1.ic))
    let k2 : Core := { k1 with mx := k1.mx.filter (fun m => decide (k1.ic < m.due))
                               bpend := k1.bpend.filter (fun b => decide (k1.ic < b.due)) }
    ps.foldl Core.land (bs.foldl Core.landBank (ms.foldl Core.landMx k2))

/-- The issue cycle of a bundle that traps (18 R341, R342, log 34): results that become readable in it have landed. -/
def Core.tried (k : Core) : Core := { k.landAll with ic := k.ic + 1 }

/-- The end of an issue cycle: the engine has read the operands of the steps begun (10 R214), and the cycle is counted. -/
def State.endCycle (s : State) (c : Nat) : State :=
  let cl := s.cluster (coreCluster c)
  s.upCore c (fun k => if k.mon.isSome then { k with ic := k.ic + 1 } else { (k.mxRead cl) with ic := k.ic + 1 })

/-- An issue cycle without a bundle (07 R134). -/
def State.sleepCycle (s : State) (c : Nat) : State := (s.upCore c Core.landAll).endCycle c

/-- CODELEN (02 R26). -/
def Code.len (x : Code) : Nat := x.hw.length

/-- The check of a taken branch's target (06 R105). -/
def Code.targetOk (x : Code) (t : Nat) : Bool := decide (t < x.len) && x.starts.contains t

/-- The end test (07 R144): the stack after it and the back edge, if one is taken; at most the six entries are popped. -/
def loopEnd (h lv : Nat) : Nat → List LoopEnt → List LoopEnt × Option Nat
  | 0, l => (l, none)
  | f + 1, l => match l.getLast? with
    | none => (l, none)
    | some e =>
      if lv < l.length ∧ e.end_ = h then
        if e.ix.toNat + 1 < e.count.toNat then (l.dropLast ++ [{ e with ix := e.ix + 1 }], some e.start)
        else loopEnd h lv f l.dropLast
      else (l, none)

/-- Move to a target, with BADTGT for one that fails its check (06 R105, 18 R341: POS is the failed target). -/
def Core.goTo (k : Core) (x : Code) (t : Nat) : Core :=
  { k with pos := t, causes := if x.targetOk t then k.causes else k.causes ++ [.badtgt t] }

/-- The end test of the bundle last issued, when it is due (07 R144). -/
def Core.loopTest (k : Core) (x : Code) : Core :=
  if !k.loopDue then k
  else
    let r := loopEnd k.lastPos k.levels 7 k.loops
    let k := { k with loops := r.1, loopDue := false }
    match r.2 with
    | some t => k.goTo x t
    | none => k

/-- The same on the state. -/
def State.loopTest (s : State) (c : Nat) : State :=
  match s.codeOf (s.core c) with
  | some x => s.upCore c (fun k => k.loopTest x)
  | none => s

/-- The bundle at the code position: its checks at fetch and issue (06 R104, R126). -/
def fetch (x : Code) (nmv : Bool) (h : Nat) : Except TrapInfo (BundleBits × Nat) :=
  let trap (c : Cause) (d : Nat) : Except TrapInfo (BundleBits × Nat) := .error ⟨c, BitVec.ofNat 32 d, 0⟩
  if x.len ≤ h then trap .badtgt x.len
  else
    let i := ((x.hw[h]?).getD 0).toNat
    if 0xFFF0 ≤ i ∧ i ≠ 0xFFFF then trap .illop i
    else match x.bundleAt h with
      | none => trap .badidx i
      | some b =>
        if 7 ≤ bundleProf b then trap .badprof (bundleProf b)
        else match (if i = 0xFFFF then checkBundle b nmv else none) with
          | some (.conflict c) => trap .slotconf c
          | some (.slot n) => trap .illop (0xA00 + n)
          | none => match zeroSlot b with
            | some n => trap .illop (0xA08 + n)
            | none => .ok (b, if i = 0xFFFF then 25 else 1)

/-- The first line of the code buffer that a fetch at h needs and that is missing (06 R103, log 21). -/
def Core.missing (k : Core) (x : Code) (h : Nat) : Option Nat :=
  let last := if (x.hw[h]?).getD 0 = 0xFFFF then h + 24 else h
  ([h / Config.codeLine, last / Config.codeLine]).find? (fun l => !k.cbuf.contains l)

/-- Whether an instruction is a stitching instruction (20 R380, 16 R319). -/
def stitches : Instr → Bool
  | .slset _ _ | .sladv _ _ _ | .slmode _ _ | .lnch _ | .cancel _ | .tagnew _ _ _ | .tagret _ | .bkdef _ _ | .bkdone _
  | .push _ _ _ _ => true
  | _ => false

/-- Whether an instruction is a strong store to scratch, whose entry is not withheld (15 R297). -/
def strongScratch : Instr → Bool
  | .st o => o.strong
  | .vst o => o.strong
  | .vsts o => o.strong
  | _ => false

/-- Banks that have been written, or will be by results in flight, since the last stitch point (20 R382). -/
def Core.claimed (k : Core) : List Nat :=
  ((k.shadow.banks.map Prod.fst) ++ k.bpend.map (fun b => b.bank)
    ++ k.mx.flatMap (fun m => upFrom m.acb 4)).eraseDups

/-- Units of spill memory shadowed since the last stitch point, and those that the bundle's writes add (20 R382). -/
def Core.spillClaimed (k : Core) : List Nat :=
  ((k.shadow.spill.map Prod.fst) ++ k.bound.flatMap (fun b => match b with
    | .spill off len _ => (touchedUnits off len).filter (fun u => decide (u < 192))
    | _ => [])).eraseDups

/-- What an implicit stitch is needed for (20 R383): k0 as the core stands before the bundle, k1 with the bundle's effects. -/
inductive Overfill where
  | fits | before | wide
  deriving DecidableEq, Repr

/-- See `Overfill`. -/
def overfill (k0 k1 : Core) (strong : Bool) : Overfill :=
  let own := (((k1.bpend.drop k0.bpend.length).map (fun b => b.bank))
    ++ (k1.mx.drop k0.mx.length).flatMap (fun m => upFrom m.acb 4)).eraseDups
  if 32 < own.length then .wide
  else if 64 < k1.sbuf.length - nb strong ∨ (own ≠ [] ∧ 32 < k1.claimed.length) ∨ 64 < k1.spillClaimed.length then .before
  else .fits

/-- What an implicit stitch is needed for, as far as the bundle's slots decide it: the buffer and the shadows are judged before anything
of the bundle is consumed (20 R383), so marks of errors are left aside. -/
def overfillOf (slots : List (Nat × Instr)) (s1 : State) (c : Nat) : Overfill :=
  let s0 := s1.upCore c (fun k => { k with bad := [], badSpill := [] })
  match runSlots slots s0 with
  | .ok s2 => overfill (s0.core c) (s2.core c) (slots.any (fun i => strongScratch i.2))
  | .error _ => .fits

/-- Begin the drain of an implicit stitch (20 R383): the buffer is released, results land in sleep cycles. -/
def State.drainFor (s : State) (c : Nat) (d : Drain) : State :=
  s.upCore c (fun k => { k with phase := .drain d, release := k.sbuf.length })

/-- A context keeps the core of context k from a seam: it rewinds for seams, in the same group; of two that rewind, the one that has reached
its next seam keeps the other from none (16 R332, R333, log 113). -/
def Core.holdsSeam (x k : Core) : Bool :=
  x.rid == k.rid && x.seamRew && x.phase != .ended && x.phase != .idle && !(k.seamRew && x.seamWait)

/-- A core that rewinds for seams in the same group, on the mesh or switched out (16 R332). -/
def State.seamBlocked (s : State) (c : Nat) : Bool :=
  (clusterCores (coreCluster c)).any (fun d => d != c && (s.core d).holdsSeam (s.core c)) ||
  s.saved.any (fun e => e.2.core != c && coreCluster e.2.core == coreCluster c && e.2.k.holdsSeam (s.core c))

/-- The poisoned unit of the counter that a WAITC reads: the read, like any load of the core, consumes it (20 R379, log 111). -/
def State.waitPoison (s : State) : Wait → Option Nat
  | .ctr _ (some pa) _ => if s.paHeld pa 16 then none else s.poisonAt (s.freeIx 1) pa 16
  | _ => none

/-- Test the condition of a pending wait (08 R161 to R164): the state after it completed, or none, as while its counter cannot be read (12
R258). Its completion acquires, but for WAITT (15 R303). -/
def State.waitDone (s : State) (c : Nat) : Wait → Option State
  | .tc v => if v.toNat ≤ s.tc then some s else none
  | .ev m =>
    let k := s.core c
    if k.ev &&& m = m then
      some ((s.setCore c { k with ev := k.ev &&& ~~~m, evCleared := k.evCleared ||| m }).acquire c)
    else none
  | .ctr _ none _ => none
  | .ctr _ (some pa) fd =>
    let x := s.counterAt (s.freeIx 1) pa
    if s.paHeld pa 16 || (s.poisonAt (s.freeIx 1) pa 16).isSome then none
    else if x.holds || (s.core c).waitCame then
      some (((s.recallRead pa 16 0 false (dieOf? c)).upCore c (fun k => k.setF fd.toNat x.past)).acquire c)
    else none

/-- The wait of a core has completed: it goes on, or drains if its bundle is a stitch, or one that an implicit stitch follows. -/
def State.wake (s : State) (c : Nat) : State :=
  if (s.core c).stitchBit then
    let s := s.loopTest c
    (s.drainFor c (.stitch (s.core c).stitchOp)).upCore c (fun k => { k with stitchBit := false })
  else if (s.core c).after then (s.loopTest c).drainFor c (.implicit false)
  else s.upCore c (fun k => { k with phase := .run })

/-- Page requests of a core's die are at their limit (11 R249). -/
def State.pagesFull (s : State) (c : Nat) : Bool := decide (pageLimit ≤ s.pagesOut c)

/-- Translate the counter of a WAITC that has no translation, as any core access does (08 R164, 11 R247, R249): a miss, or a page request that
finds no room, is a whole-core stall, of the kind given; a page request freezes the core. -/
def State.waitXlate (s : State) (c : Nat) (va : Word) (fd : BitVec 3) : State × StallK :=
  match s.xlate (engOf c) va.toNat 0 .read with
  | .ok pa => (s.upCore c (fun k => { k with phase := .sleep (.ctr va (some pa) fd) }), .none)
  | .miss => (s.owe (.atsTranslationReply (engOf c) va.toNat), .hard)
  | .fault r =>
    if r.resolvable then if s.pagesFull c then (s, .soft) else (s.sendPage c (engOf c) false va, .none)
    else (s.freeze c { t := pagef r va, pk := .wait, fatal := true, pos := (s.core c).lastPos }, .none)

/-- The entries that core c withholds leave as its WAITC begins, by a free choice (20 R381, 24 R436, log 79). -/
def State.waitFrees (s : State) (c : Nat) : State :=
  let k := s.core c
  if k.mon.isNone ∧ k.sbuf ≠ [] ∧ Config.waitReleases (s.freeIx 2) = true then s.upCore c (fun k => { k with release := k.sbuf.length })
  else s

/-- Begin a wait (08 R161): if its condition holds already, the bundle completes as an ordinary one. A WAITC's read recalls its counter (11
R244). -/
def State.beginWait (s0 : State) (c : Nat) (w : Wait) : State :=
  let s := s0.upCore c (fun k => { k with waitCame := false })
  match s.waitDone c w with
  | some s => s
  | none =>
    let s := s.upCore c (fun k => { k with phase := .sleep w })
    match w with
    | .ctr va none fd => ((s.waitFrees c).waitXlate c va fd).1
    | .ctr _ (some pa) _ =>
      let s := s.waitFrees c
      if s.paHeld pa 16 then s else s.recallRead pa 16 0 false (dieOf? c)
    | _ => s

/-- What the branch slot does at the end of the bundle at h, whose successor in the stream is n (08 R157 to R166, 07 R142). A taken
branch leaves no end test due (07 R145). -/
def State.endBranch (s : State) (c h n : Nat) (x : Code) (b : BrAct) : State :=
  let taken (s : State) (t : Nat) : State := s.upCore c (fun k => k.goTo x t)
  let fall (s : State) : State := s.upCore c (fun k => { k with pos := n, loopDue := true })
  match b with
  | .none | .exit => fall s
  | .jump t => taken s t
  | .call t => taken (s.upCore c (fun k => { k with ras := k.ras ++ [n] })) t
  | .ret =>
    let t := ((s.core c).ras.getLast?).getD 0
    taken (s.upCore c (fun k => { k with ras := k.ras.dropLast })) t
  | .loop e => fall (s.upCore c (fun k => { k with loops := k.loops ++ [e] }))
  | .loopSkip e => taken s (x.nextPos e)
  | .lexit =>
    let e := (((s.core c).loops.getLast?).map (fun l => l.end_)).getD h
    taken (s.upCore c (fun k => { k with loops := k.loops.dropLast })) (x.nextPos e)
  | .wait w => (fall s).beginWait c w
  | .trap code => fall (s.upCore c (fun k => { k with causes := k.causes ++ [.swtrap code] }))
  | .rett => s.rett c
  | .halt => s.halt c

/-- The end of a bundle that has issued (07 R133): its own writes, the end of its issue cycle, its branch; then the release of the
buffer that a stitch bundle, EXIT, PHASE or FENCE makes (20 R380, 13 R275, R276), and the drain of a stitch or EXIT. -/
def State.finish (s : State) (c : Nat) (x : Code) (b : BundleBits) (len : Nat) : State :=
  let k := s.core c
  let h := k.pos
  let mon := k.mon.isSome
  let act := k.br
  let strong := !mon
  let s := s.upCore c (fun k => { k.bWrites with br := .none, lastPos := h, lastIssue := if mon then k.lastIssue else s.tc })
  let s := s.endCycle c
  let s := s.upCore c (fun k => if !mon && bundleSeam b then { k with seamRew := false, seamWait := false } else k)
  let s := s.endBranch c h (h + len) x act
  if !strong then s
  else
    let stitch := bundleStitch b || (s.core c).stitchOp.isSome
    let frees := match (s.core c).op with
      | some (.phase _) => true
      | some (.fence a b) => decide (a = .ls ∨ a = .acc ∨ b = .ls ∨ b = .acc)
      | _ => false
    let s := if stitch || frees || decide (act = .exit) then s.upCore c (fun k => { k with release := k.sbuf.length }) else s
    if act = .exit then s.upCore c (fun k => { k with
        phase := .drain (if k.stitchOp.isSome then .stitch k.stitchOp else .exit), exiting := k.stitchOp.isSome, loopDue := false })
    else if stitch then
      match (s.core c).phase with
      | .sleep _ => s.upCore c (fun k => { k with stitchBit := true })
      | _ =>
        let s := s.loopTest c
        s.upCore c (fun k => { k with phase := .drain (.stitch k.stitchOp), after := false })
    else if (s.core c).after then
      match (s.core c).phase with
      | .sleep _ => s
      | _ => (s.loopTest c).drainFor c (.implicit false)
    else s

/-- Poison consumed, due at this boundary (20 R379): in a result that lands in the coming cycle, or in a K-step that has ended. -/
def Core.duePoison (k : Core) : Option Nat :=
  match k.pend.findSome? (fun p => match p.st with
      | .poison pa => if p.due ≤ k.ic then some pa else none
      | _ => none) with
  | some pa => some pa
  | none => if k.mon.isSome then none
      else k.mx.findSome? (fun m => if m.iss + 8 * m.got ≤ k.ic then m.poison else none)

/-- PostRecord of RETT stalls while Lane N has no room (18 R353): how many records that wait at the HXD and the dies fill it, the manual does
not say (log 35). -/
def State.laneNFull (s : State) (c : Nat) : Bool :=
  let n := s.hxd.laneN.waiting.length
  bit ((s.core c).tf 4) 0 && !bit ((s.core c).tf 0) 10 && decide (n ≠ 0) && Config.laneNFull n

/-- A precise trap of a bundle at the boundary after its issue cycle, where poison due there, or a cycle of a pair that did not match, comes
first (18 R358 ranks 1 and 2, 07 R152). -/
def State.trapAt (s : State) (c : Nat) (t : TrapInfo) (store : Option Req) : State :=
  let s := s.upCore c Core.tried
  match (s.core c).duePoison with
  | some pa => s.rewindCore c .poison pa
  | none => if (s.core c).mismatched then s.rewindCore c .pairmism 0 else takeTrap s t store

/-- The outcome of one attempt to issue. -/
inductive Issued where
  /-- A bundle has issued, or the core has otherwise used the cycle. -/
  | done (s : State)
  /-- The whole core stalls. -/
  | stall (soft : Bool) (s : State)
  /-- The bundle has not issued: an implicit stitch comes before it, on account of a bundle that is bracketed by two or not. -/
  | before (wide : Bool) (s : State)
  deriving DecidableEq, Repr

/-- Issue the bundle at core c's position (07 R133). Results that become readable in this cycle land first. -/
def State.issue (s : State) (c : Nat) : Issued :=
  let k := s.core c
  match s.codeOf k with
  | none => .stall false s
  | some x =>
    match (if k.pos < x.len then k.missing x k.pos else none) with
    | some l => .stall false (s.owe (.codeBufferFill c l))
    | none =>
      match fetch x k.nmv k.pos with
      | .error t => .done (if t.cause = .badtgt then takeTrap s t none else s.trapAt c t none)
      | .ok (b, len) =>
        let slots := bundleSlots b
        let mon := k.mon.isSome
        let stitch := !mon && (bundleStitch b || slots.any (fun i => stitches i.2))
        let exits := slots.any (fun i => i.2 == .exit)
        if k.cancelTc.isSome && (stitch || (!mon && exits)) then .done (s.stopCore c)
        else if !mon && bundleSeam b && s.seamBlocked c then .done ((s.upCore c (fun k => { k with seamWait := k.seamRew })).sleepCycle c)
        else if mon && slots.any (fun i => i.2 == .rett) && s.laneNFull c then .stall false s
        else
          let prof := if bundleProf b = 0 then (if mon then x.defprof else k.defprof) else bundleProf b
          let so := if mon then k.stitchOp else none
          let s1 := s.upCore c (fun k => { k.landAll with len := len, prof := prof, br := .none, bound := [], stitchOp := so })
          let past := if mon || k.window then .fits else overfillOf slots s1 c
          match past with
          | .before => if k.cancelTc.isSome then .done (s.stopCore c) else .before false (s.drainFor c (.implicit false))
          | .wide => if k.cancelTc.isSome then .done (s.stopCore c) else .before true (s.drainFor c (.implicit true))
          | .fits =>
            match runSlots slots s1 with
            | .error (.trap t) => .done (s.trapAt c t none)
            | .error (.trapSt t r) => .done (s.trapAt c t (some r))
            | .error (.rewind pa) => .done (s.rewindCore c .poison pa)
            | .error (.stall soft) => .stall soft s
            | .error (.xlat e va) => .stall false (s.owe (.atsTranslationReply e va))
            | .ok s2 => .done ((s2.upCore c (fun k' =>
                if mon then k' else { k' with after := k.window, stitchBit := false })).finish c x b len)

end Sys2Proof.Machine
end

