-- ==== Sys2Proof/Machine/Cycle.lean ====
section
/-! DEFINITION. Cycle.lean: one core cycle (07 R134): whole-core stalls, freezes and their causes at a bundle boundary (18 R341 to R344,
R358), sleeps, drains, the issue of a bundle; and the passage of TC. -/

namespace Sys2Proof.Machine

/-- Whether a cause's freeze is fatal (18 R341). -/
def Cause.fatal : Cause → Bool
  | .cellfull | .promise | .overarr | .hr | .nf | .swtrap | .intr => false
  | _ => true

/-- A freeze whose POSKIND is NEXT, or WAIT when the core sleeps (18 R341). With no bundle to come, after EXIT, its position is that of the
last one, and RETT goes back to the drain or the table (log 22). -/
def Core.nextInfo (k : Core) (t : TrapInfo) : FreezeInfo :=
  match k.phase with
  | .sleep _ => { t := t, pk := .wait, fatal := t.cause.fatal, pos := k.lastPos }
  | .drain .exit | .table | .idle => { t := t, pk := .next, fatal := t.cause.fatal, pos := k.lastPos }
  | _ => { t := t, pk := .next, fatal := t.cause.fatal, pos := k.pos }

/-- Take one cause off the list. -/
def Core.dropCause (k : Core) (p : PCause) : Core := { k with causes := k.causes.erase p }

/-- A recorded fault due at this boundary (18 R344). -/
def Core.dueFault (k : Core) : Option TrapInfo :=
  k.pend.findSome? (fun p => match p.st with
    | .fault t => if p.due ≤ k.ic then some t else none
    | _ => none)

/-- A page request that a result due now waits for (18 R344). -/
def Core.duePage (k : Core) : Option Nat :=
  k.pend.findSome? (fun p => match p.st with
    | .page id => if p.due ≤ k.ic then some id else none
    | _ => none)

/-- A result of the return queue whose data is late (07 R138). -/
def Core.dueLate (k : Core) : Bool :=
  k.pend.any (fun p => decide (p.due ≤ k.ic) && (match p.st with | .wait | .xlat => true | _ => false))

/-- The first of a list by an order. -/
def firstBy {α : Type} (le : α → α → Bool) : List α → Option α
  | [] => none
  | x :: xs => match firstBy le xs with
    | none => some x
    | some y => if le x y then some x else some y

/-- The weak-store fault taken first: in the issue order of the stores (13 R265). -/
def Core.firstWeak (k : Core) : Option (TrapInfo × Req) :=
  firstBy (fun a b => decide (a.2.iss ≤ b.2.iss))
    (k.causes.filterMap (fun p => match p with | .weak t r => some (t, r) | _ => none))

/-- The broken promise taken first: the earliest issued, by the order of R281. -/
def Core.firstPromise (k : Core) : Option (Nat × BitVec 32) :=
  firstBy (fun a b => decide ((b.1 + 4096 - a.1) % 4096 < 2048))
    (k.causes.filterMap (fun p => match p with | .promise q d => some (q, d) | _ => none))

/-- The first cause of a kind, in order of arrival. -/
def Core.firstCause {α : Type} (k : Core) (f : PCause → Option α) : Option α := k.causes.findSome? f

/-- A freeze for a cause of a detail word, with none of it left pending. -/
def State.takeCause (s : State) (c : Nat) (p : PCause) (t : TrapInfo) : State :=
  let k := (s.core c).dropCause p
  (s.setCore c k).freeze c { k.nextInfo t with held := match p with
    | .promise _ _ | .overarr _ | .intr _ | .nf _ => some p
    | _ => none }

/-- Rank 1 (18 R358): poison consumed, or a write that landed differently on the follower, which is known two issue cycles later
(07 R152). -/
def State.boundary1 (s : State) (c : Nat) : Option State :=
  let k := s.core c
  match k.duePoison with
  | some pa => some (s.rewindCore c .poison pa)
  | none => match k.pairBad with
    | some n => if n + 3 ≤ k.ic then some (s.rewindCore c .pairmism 0) else none
    | none => none

/-- Rank 3 (18 R344). -/
def State.boundary3 (s : State) (c : Nat) : Option State :=
  let k := s.core c
  match k.dueFault with
  | some t => some (s.freeze c { k.nextInfo t with shadow := true })
  | none => match k.duePage with
    | some id => some (s.setCore c { k with await := k.await ++ [id] })
    | none => none

/-- Rank 2 (18 R358): BADTGT, and a fault of the strong store, atomic or wait just issued. A CELLFULL of these is pending with the
memory slot (18 R341). An ILLOP that a stitching instruction meets at the allocator is AGAIN (16 R327, R328). In the monitor only its own are on the list (18 R358). -/
def State.boundary2 (s : State) (c : Nat) : Option State :=
  let k := s.core c
  match k.firstCause (fun p => match p with | .badtgt _ | .opFault _ _ => some p | _ => none) with
  | some (.badtgt t) =>
    some ((s.setCore c (k.dropCause (.badtgt t))).freeze c
      { t := ⟨.badtgt, BitVec.ofNat 32 t, 0⟩, pk := .next, fatal := true, pos := t })
  | some (.opFault t r) =>
    let s := s.setCore c (k.dropCause (.opFault t r))
    if t.cause = .cellfull then
      some (s.freeze c { t := t, pk := .pend, fatal := false, pslot := 6, pos := k.lastPos, store := some r })
    else if t.cause = .illop then some (s.freeze c { t := t, pk := .again, fatal := true, pos := k.lastPos })
    else some (s.freeze c { (s.core c).nextInfo t with store := some r })
  | _ => none

/-- Ranks 4 to 8 (18 R358). -/
def State.boundary48 (s : State) (c : Nat) : Option State :=
  let k := s.core c
  match k.firstWeak with
  | some (t, r) =>
    let k := k.dropCause (.weak t r)
    some ((s.setCore c k).freeze c { k.nextInfo t with store := some r })
  | none => match k.firstCause (fun p => match p with | .hr d => some d | _ => none) with
    | some d => some (s.takeCause c (.hr d) ⟨.hr, d, 0⟩)
    | none => match k.firstPromise with
      | some (q, d) => some (s.takeCause c (.promise q d) ⟨.promise, d, 0⟩)
      | none => match k.firstCause (fun p => match p with | .overarr d => some d | _ => none) with
        | some d => some (s.takeCause c (.overarr d) ⟨.overarr, d, 0⟩)
        | none => match k.firstCause (fun p => match p with | .swtrap d => some d | _ => none) with
          | some d => some (s.takeCause c (.swtrap d) ⟨.swtrap, d.setWidth 32, 0⟩)
          | none => none

/-- Begin a switch-out at this boundary (18 R361): results are held, the buffer is released, and the save is owed. -/
def State.beginSave (s : State) (c : Nat) (tc : Nat) : State :=
  (s.upCore c (fun k => { k with out := .saving tc, release := k.sbuf.length })).owe (.switchOut c)

/-- Ranks 10 and 11 (18 R358). -/
def State.boundary1011 (s : State) (c : Nat) : Option State :=
  let k := s.core c
  match k.firstCause (fun p => match p with | .intr _ | .nf _ => some p | _ => none) with
  | some (.intr d) => some (s.takeCause c (.intr d) ⟨.intr, d, 0⟩)
  | some (.nf d) => some (s.takeCause c (.nf d) ⟨.nf, d, 0⟩)
  | _ => match k.out with
    | .requested tc => some (s.beginSave c tc)
    | _ => none

/-- The first of two answers. -/
def orElse' {α : Type} (a : Option α) (b : Option α) : Option α := match a with | some x => some x | none => b

/-- What a bundle boundary takes, if anything (18 R358); `early` stops at rank 8, for a boundary at which the waiting freeze of rank
9 follows. In the monitor only ranks 1 and 2 (18 R358); in a drain ranks 1 to 3, and with no bundle to come ranks 1 to 8 (log 22). -/
def State.boundaryOf (s : State) (c : Nat) (early : Bool) : Option State :=
  let k := s.core c
  let r12 := orElse' (s.boundary1 c) (s.boundary2 c)
  if k.mon.isSome then r12
  else match k.phase with
    | .drain _ => orElse' r12 (s.boundary3 c)
    | .table | .idle => orElse' (orElse' r12 (s.boundary3 c)) (s.boundary48 c)
    | _ => orElse' (orElse' (orElse' r12 (s.boundary3 c)) (s.boundary48 c)) (if early then none else s.boundary1011 c)

/-- The same for a pair: a cycle that did not match is found before both cores freeze at one boundary (07 R152). -/
def State.boundary (s : State) (c : Nat) (early : Bool) : Option State :=
  match s.boundaryOf c early with
  | some t => some (if (s.core c).mismatched && (s.core c).duePoison.isNone then s.rewindCore c .pairmism 0 else t)
  | none => none

/-- The end test due before this boundary runs (07 R144), unless the slot that is still to be performed of its bundle ends it (18 R353
PEND). -/
def State.settleLoop (s : State) (c : Nat) : State :=
  let k := s.core c
  let pend : Bool := k.causes.any (fun p => match p with | .opFault t _ => t.cause == .cellfull | _ => false)
  match k.phase with
  | .run => if pend then s else s.loopTest c
  | _ => s

/-- The check of a code table (04 R64): the first entry that breaks it. -/
def badEntry : Nat → Option FV → List Nat → Option Nat
  | _, _, [] => none
  | j, prev, b :: bs =>
    let x := dec .fp32 b
    let inRange := match x with
      | .fin _ m e => decide (cmpMag m e 1 0 ≠ .gt)
      | _ => false
    let ascends := match prev with
      | none => true
      | some p => p.ltNum x
    if inRange && ascends then badEntry (j + 1) (some x) bs else some j

/-- The FP32 words of bytes. -/
def words32 : Nat → List Byte → List Nat
  | 0, _ => []
  | n + 1, bs => leNat (bs.take 4) :: words32 n (bs.drop 4)

/-- Load and check the code table (09 R193, 13 R288). -/
def Core.loadTable (k : Core) (bs : List Byte) : Core :=
  let ws := words32 256 bs
  let k := { k with ct := (ws.zipIdx).map (fun (w, j) => (j, BitVec.ofNat 32 w)) }
  match badEntry 0 none ws with
  | none => { k with ctValid := true, ctFail := 0 }
  | some j => { k with ctValid := false, ctFail := j + 1 }

/-- A translation fault met by an operation the core stalls on: a page request, or the cause of a freeze (11 R249). -/
def State.opFaultAt (s : State) (c : Nat) (r : Req) (va : Word) (rs : PReason) (write : Bool) : State :=
  if rs.resolvable then
    if pageLimit ≤ s.pagesOut c then s else s.sendPage c (engOf c) write va
  else s.upCore c (fun k => { k with op := none, causes := k.causes ++ [.opFault (pagef rs va) r]
                                     pend := match r.k with
                                       | .atomic _ _ _ _ _ => k.pend.filter (fun p => p.seq != r.pend)
                                       | _ => k.pend })

/-- Whether a load, CTLD has no request of its own: a blank request for its faults. -/
def Core.blankReq (k : Core) (c : Nat) (va : Word) : Req :=
  { k := .load false, core := c, rid := k.rid, lidx := k.lidx, tag := 0, owner := k.ctag.toNat, zero := false, va := va, pa := 0,
    size := 0, data := 0, pend := 0, pos := k.lastPos, iss := k.ic, gen := 0, tc := 0, done := true }

/-- The first poisoned unit of n bytes at a virtual address (20 R397). -/
def State.firstPoison (s : State) (e : Engine) (rn tag : Nat) (zero : Bool) (va n : Nat) : Option Nat :=
  (pieces va n).findSome? (fun p => match s.xlate e (p.1 % 2 ^ 64) tag .read with
    | .ok pa => ((s.readPa rn tag pa p.2 zero).zipIdx pa).findSome? (fun b => if b.1.2 then some (b.2 / 128 * 128) else none)
    | _ => none)

/-- An address of n bytes that is read leads, in part, to a place that takes no request now (12 R256, R258). -/
def State.vaHeld (s : State) (e : Engine) (tag va n : Nat) (zero : Bool := false) : Bool :=
  (pieces va n).any (fun p => match s.xlate e (p.1 % 2 ^ 64) tag .read with
    | .ok pa => s.paHeld pa p.2 tag zero
    | _ => false)

/-- CTLD reads its table (13 R288). -/
def State.ctldStep (s : State) (c : Nat) (va : Word) : State :=
  let k := s.core c
  let t := s.resolve k va.toNat
  match s.readVa (engOf c) (s.freeIx 0) t.1 t.2 va.toNat 1024 with
  | .miss a => s.owe (.atsTranslationReply (engOf c) a)
  | .fault a rs => s.opFaultAt c { k.blankReq c va with size := 0 } (BitVec.ofNat 64 a) rs false
  | .data bs =>
    if s.vaHeld (engOf c) t.1 va.toNat 1024 t.2 then s
    else if anyPoison bs then s.rewindCore c .poison ((s.firstPoison (engOf c) (s.freeIx 0) t.1 t.2 va.toNat 1024).getD 0)
    else (s.recallVa (engOf c) t.1 va.toNat 1024 t.2 (dieOf? c)).upCore c (fun k => { (k.loadTable (bytesOf bs)) with op := none })

/-- A CTLD waits for room for a page request (11 R249). -/
def State.ctldFull (s : State) (c : Nat) (va : Word) : Bool :=
  s.pagesFull c && (match s.readVa (engOf c) (s.freeIx 0) (s.resolve (s.core c) va.toNat).1 (s.resolve (s.core c) va.toNat).2 va.toNat 1024 with
    | .fault _ r => r.resolvable
    | _ => false)

/-- A PHASE, or a FENCE that covers stores, meets the fault of a store it covers (15 R306): the freeze marks the memory slot
pending. -/
def State.phaseFault (s : State) (c : Nat) : Option State :=
  let k := s.core c
  if k.mon.isSome then none
  else match k.firstWeak with
    | some (t, r) => some ((s.setCore c (k.dropCause (.weak t r))).freeze c
        { t := t, pk := .pend, fatal := t.cause.fatal, pslot := 6, pos := k.lastPos, store := some r })
    | none => none

/-- The one slot that RETT leaves to be performed (18 R353 PEND): its effect and its writes, no branch of it; a stitching instruction acts
after the drain of its bundle. -/
def State.slotStep (s : State) (c : Nat) (i : Instr) : State × StallK :=
  let at_ (t : TrapInfo) (r : Option Req) : State :=
    s.freeze c { t := t, pk := .again, fatal := true, pos := (s.core c).lastPos, store := r }
  match slotEff i (s.upCore c (fun k => { k with op := none, stitchOp := none, bound := [], br := .none })) with
  | .ok s =>
    let s := s.upCore c (fun k => { k.bWrites with br := .none })
    (if (s.core c).stitchOp.isSome then s.drainFor c (.stitch (s.core c).stitchOp) else s, if (s.core c).op.isSome then .hard else .none)
  | .error (.trap t) => (at_ t none, .none)
  | .error (.trapSt t r) => (at_ t (some r), .none)
  | .error (.rewind pa) => (s.rewindCore c .poison pa, .none)
  | .error (.stall soft) => (s, if soft then .soft else .hard)
  | .error (.xlat e va) => (s.owe (.atsTranslationReply e va), .hard)

/-- What the operation does that a core stalls on (07 R134): the state, and whether the core still stalls, in a stall that a
cancellation ends at once or not. -/
def State.opStep (s : State) (c : Nat) : Option (State × StallK) :=
  let k := s.core c
  match k.op with
  | none => none
  | some (.access r false) =>
    match s.xlate (engOf c) r.va.toNat r.tag r.k.acc with
    | .ok pa => some (s.upCore c (fun k => { k with op := some (.access { r with pa := pa } true) }), .hard)
    | .miss => some (s.owe (.atsTranslationReply (engOf c) r.va.toNat), .hard)
    | .fault rs => some (s.opFaultAt c r r.va rs true, if rs.resolvable then .soft else .none)
  | some (.access r true) =>
    let id := s.nextId
    let s := s.send { r with done := true }
    some (s.upCore c (fun k => { k with op := some (match r.k with | .atomic _ _ _ _ _ => .atomic id | _ => .strong id) }), .hard)
  | some (.ctld va) => some (s.ctldStep c va, if s.ctldFull c va then .soft else .hard)
  | some (.slot i) => some (s.slotStep c i)
  | some (.phase _) | some .bkdone => match s.phaseFault c with
    | some s => some (s, .hard)
    | none => some (s.owe (.phaseComplete c), .hard)
  | some (.fence a b) =>
    match (if a = .ls ∨ a = .acc ∨ b = .ls ∨ b = .acc then s.phaseFault c else none) with
    | some s => some (s, .hard)
    | none => some (s.owe (.fenceComplete c), .hard)
  | some (.act o) => some (s.owe (.stitchPoint c), match o with | .sladv _ _ _ | .push _ _ _ _ => .soft | _ => .hard)
  | some (.switch _ _ _ _) => some (s.owe (.sliceSwitchPoint c), .hard)
  | some (.strong _) | some (.atomic _) => some (s, .hard)
  | some (.answer _ _) => some (s, .hard)

/-- Every result of a core in flight has landed (20 R380 step 2). -/
def Core.drained (k : Core) : Bool := k.pend.isEmpty && k.bpend.isEmpty && k.mx.isEmpty && k.release == 0

/-- A core issues, or stalls, or uses the cycle otherwise; the waiting freeze of the bundle just issued comes after ranks 1 to 8. -/
def State.issued (_s : State) (c : Nat) : Issued → State
  | .stall soft s => s.upCore c (fun k => { k with stall := if soft then .soft else .hard })
  | .before _ s => s
  | .done s => if (s.core c).await.isEmpty then s else ((s.settleLoop c).boundary c true).getD s

/-- The end of an implicit stitch (20 R383): the shadow is refreshed, and the bundle that it precedes issues in this cycle, unless its
boundary takes something. -/
def State.implicitEnd (s : State) (c : Nat) (wide : Bool) : State :=
  if (s.core c).mismatched then s.rewindCore c .pairmism 0
  else if (s.core c).cancelTc.isSome || s.hxd.pkgFailed then s.stopCore c
  else
    let s := s.upCore c (fun k => { k.stitch with phase := .run, window := wide })
    match s.boundary c false with
    | some s => s
    | none => s.issued c (s.issue c)

/-- One cycle of a drain (20 R380, R383, 08 R160). -/
def State.drainCycle (s : State) (c : Nat) (d : Drain) : State :=
  if !(s.core c).drained then
    if (s.core c).dueLate then s.upCore c (fun k => { k with stall := .hard }) else s.sleepCycle c
  else match d with
    | .stitch _ => s.owe (.stitchPoint c)
    | .exit => s.owe (.taskExitComplete c)
    | .implicit wide => s.implicitEnd c wide

/-- The first cycle of an implicit stitch (20 R383): the buffer is released, and the sleep of R380's step 2 begins. -/
def State.implicitStart (s : State) (c : Nat) (wide : Bool) : State :=
  let s := s.releaseAll c (s.core c).release
  if (s.core c).release ≠ 0 ∨ !(s.core c).await.isEmpty then s.upCore c (fun k => { k with stall := .hard })
  else s.drainCycle c (.implicit wide)

/-- Break the promises of a core's requests that TC has reached (13 R281). -/
def State.ownLate (s : State) (c : Nat) : State :=
  s.engs.foldl (fun s e =>
    if e.2.core = c ∧ e.2.rid = (s.core c).rid ∧ !e.2.broken ∧ e.2.promise ≤ s.tc then
      { (s.breakPromise e.2 0x10) with engs := put s.engs e.1 { e.2 with broken := true } }
    else s) s

/-- Points handed to a core enter its dependency table, lowest first, while it has room (07 R147). -/
def fillTable : Nat → Tbl Nat → List Nat → Tbl Nat × List Nat
  | 0, t, qs => (t, qs)
  | _, t, [] => (t, [])
  | f + 1, t, q :: qs =>
    match (upFrom 0 16).find? (fun e => (look t e).isNone) with
    | some e => fillTable f (put t e q) qs
    | none => (t, q :: qs)

/-- A core that waits for an eligible task (07 R147, R149): points enter the table; the table looks for a task to start; an empty one
asks for the next range of a DYN launch (05 R97), or leaves the core idle. -/
def State.tableCycle (s : State) (c : Nat) : State :=
  let k := s.core c
  let r := fillTable 16 k.tasks k.todo
  let s := s.setCore c { k with tasks := r.1, todo := r.2, ic := k.ic + 1
                                lastIssue := if k.tasks.isEmpty then s.tc else k.lastIssue }
  match k.out with
  | .requested tc => s.beginSave c tc
  | _ =>
    if k.cancelTc.isSome then s.stopCore c
    else if r.1.isEmpty then
      if k.share.isSome then s else s.owe (.dynRangeRequest c)
    else s.owe (.taskStart c)

/-- A waiting freeze (11 R249): a switch-out asked for is taken at once (18 R361); a page request that cannot be resolved has
ended it otherwise. -/
def State.awaitCycle (s : State) (c : Nat) : State :=
  match (s.core c).out with
  | .requested tc => if (s.core c).mon.isSome then s else s.beginSave c tc
  | _ => s

/-- A stall that a core still stands in though it holds no operation: late load data, or a code-buffer miss (07 R134). -/
def State.stillStalls (s : State) (c : Nat) : Option State :=
  let k := s.core c
  let hard (s : State) : State := s.upCore c (fun k => { k with stall := .hard })
  if k.dueLate then some (hard s)
  else match k.phase, s.codeOf k with
    | .run, some x => (if k.pos < x.len then k.missing x k.pos else none).map (fun l => hard (s.owe (.codeBufferFill c l)))
    | _, _ => none

/-- The sleep of a WAITC whose counter has no translation goes on when it has one (11 R247, R249): the state, if the core does nothing else in
this cycle. -/
def State.sleepXlate (s : State) (c : Nat) : State × Bool :=
  match (s.core c).phase with
  | .sleep (.ctr va none fd) => match s.waitXlate c va fd with
    | (s, .none) =>
      if (s.core c).await.isEmpty then (s, (s.core c).mon.isSome || (s.core c).phase == .ended) else ((s.boundary c true).getD s, true)
    | (s, st) => (s.upCore c (fun k => { k with stall := st }), true)
  | _ => (s, false)

/-- The cycle of a core that runs or sleeps, with nothing it stalls on. A cancelled context stops once the stall it stood in has ended (05
R101). -/
def State.runCycle (s : State) (c : Nat) : State :=
  let s := s.settleLoop c
  if (s.core c).stopNext ∧ (s.core c).mon.isNone then (s.stillStalls c).getD (s.stopCore c)
  else match s.sleepXlate c with
  | (s, true) => s
  | (s, false) => match s.boundary c false with
    | some s => s
    | none =>
      let k := s.core c
      match k.phase with
      | .drain d => s.drainCycle c d
      | .table => s.tableCycle c
      | .sleep w =>
        if k.dueLate then s.upCore c (fun k => { k with stall := .hard })
        else match s.waitPoison w with
          | some p => s.rewindCore c .poison p
          | none =>
            let s := s.sleepCycle c
            match s.waitDone c w with
            | some s => s.wake c
            | none => s
      | .run =>
        if k.dueLate then s.upCore c (fun k => { k with stall := .hard })
        else match s.issue c with
          | .before wide s => s.implicitStart c wide
          | r => s.issued c r
      | .idle | .ended => s

/-- A core stalled in LNCH or TAGNEW may be switched out (05 R83, 03 R52). -/
def State.outWhileAnswer (s : State) (c : Nat) : Option State :=
  let k := s.core c
  match k.out, k.op with
  | .requested tc, some (.answer id _) => match look s.reqs id with
    | some r => match r.k with
      | .lnch => some (s.beginSave c tc)
      | .tagnew _ _ => some (s.beginSave c tc)
      | _ => none
    | none => none
  | _, _ => none

/-- The operation a core stalls on, then the cycle of a core free to go on. -/
def State.stallOrRun (s : State) (c : Nat) : State :=
  match s.outWhileAnswer c with
  | some s => s
  | none =>
  match s.opStep c with
  | some (s, .none) => if (s.core c).op.isNone then s.runCycle c else s
  | some (s, st) => s.upCore c (fun k => { k with stall := st })
  | none => s.runCycle c

/-- A load of the core needs a 513th page request of its die (11 R249). -/
def State.loadWaitsPage (s : State) (c : Nat) : Bool :=
  s.pagesFull c && s.reqs.any (fun e => e.2.core == c && e.2.rid == (s.core c).rid && !e.2.done && (match e.2.k with
    | .load _ => (match s.xlate (engOf c) e.2.va.toNat e.2.tag .read with
      | .fault r => r.resolvable && ((s.core c).pendAt e.2.pend).any (fun p => match p.st with | .page _ => false | _ => true)
      | _ => false)
    | _ => false))

/-- The entry at the head of a buffer that is released waits for room for a page request (11 R249). -/
def State.leaveWaitsPage (s : State) (c : Nat) : Bool :=
  s.pagesFull c && (match (s.core c).sbuf with
    | .req r :: _ => !r.done && (match s.xlate (engOf c) r.va.toNat r.tag r.k.acc with
      | .fault x => x.resolvable
      | _ => false)
    | _ => false)

/-- A pair whose cycle did not match has a request to send, or entries that leave its buffer: it rewinds first (07 R152). -/
def Core.mismatchFirst (k : Core) : Bool := k.mismatched && (k.op.isSome || k.release != 0) && k.await.isEmpty

/-- The core cycle of a context: the save of a switch-out, a waiting freeze, the release of its buffer, the stall of the whole core, which a
cancellation ends at once where it is for room for a page request (05 R101), or its operation or issue. -/
def State.contextCycle (s : State) (c : Nat) : State :=
  let s := ((s.ownLate c).sendMatched c).upCore c (fun k => { (if k.mon.isSome then k.settleMx else k) with stall := .none })
  let k := s.core c
  let free (s : State) : State := if k.release = 0 then s else s.releaseAll c k.release
  let hard (s : State) : State := s.upCore c (fun k => { k with stall := .hard })
  match k.out with
  | .saving _ => (free s).owe (.switchOut c)
  | _ =>
    if !k.await.isEmpty then s.awaitCycle c
    else if k.mismatchFirst then s.rewindCore c .pairmism 0
    else
      let s := free s
      if s.loadWaitsPage c ∨ ((s.core c).release ≠ 0 ∧ s.leaveWaitsPage c = true) then s.upCore c (fun k => { k with stall := .soft })
      else if (s.core c).release ≠ 0 ∨ !(s.core c).await.isEmpty then hard s
      else if k.nmv ∧ (s.stack (nmvStack c)).therm = .selfref then hard s
      else s.stallOrRun c

/-- One core cycle of core c. A cancelled context that stands in a state of R101 stops; the follower of a pair has its issue cycle with
each of the leader's (07 R151). -/
def State.coreCycle (s0 : State) (c : Nat) : State :=
  let s := s0.cancelMeets c
  let k := s.core c
  match k.phase with
  | .ended => s
  | .idle => if k.rid.isSome then (s.boundary c false).getD s else s
  | _ =>
    let s' := s.contextCycle c
    let k' := s'.core c
    if k'.ic = k.ic + 1 ∧ k'.mon.isSome = k.mon.isSome then s'.mirror c else s'

/-- Steps that TC brings due in a package that runs (20 R395, 26 R453): the audit, which finds nothing unless one that does comes first, and
the steps of the clocks. -/
def State.upkeep (s : State) : List Instr :=
  if s.mgmt.st ≠ .running then []
  else (if s.hxd.auditTc + 2 ^ s.hxd.auditLog2 ≤ s.tc then [.permitAudit []] else []) ++
    (if s.mgmt.clockTc + 1_800_000 ≤ s.tc then [.clockStep] else [])

/-- Steps that TC brings due (05 R87, R101, 13 R281, 18 R367, R368). Launches that age in one TC cycle do so in order of their numbers
(log 107). A launch that waits is looked at again while its JCBs answer (05 R85). -/
def State.duties (s : State) : List Instr :=
  s.upkeep ++
  (s.launches.filterMap (fun e => match e.2.state with
    | .waiting => if (s.waitList e.2).isSome then some (Instr.launchAcceptance e.1) else none
    | _ => none)) ++
  (s.launches.filterMap (fun e => match e.2.state with
    | .queued | .switchedOut =>
      if s.hxd.paAging ≠ 0 ∧ e.2.prio < 3 ∧ e.2.qtc + s.hxd.paAging.toNat ≤ s.tc then some (Instr.agingPromote e.1) else none
    | _ => none)) ++
  (s.engs.filterMap (fun e => if !e.2.broken && decide (e.2.promise ≤ s.tc) then some (Instr.promiseExpiry e.1) else none)) ++
  s.active.flatMap (fun c =>
    let k := s.core c
    (match k.cancelTc with
      | some t => if t + 65536 ≤ s.tc ∧ k.phase ≠ .ended then [Instr.cancelTimeout c] else []
      | none => []) ++
    (match k.out with
      | .requested t | .saving t =>
        if t + (s.die (coreDie c)).wdsave.toNat ≤ s.tc ∧ k.phase ≠ .ended then [Instr.saveTimeout c] else []
      | .no => []) ++
    (let lim := (s.die (if isNmv c then s.stackDie (nmvStack c) else coreDie c)).wdlimit.toNat
     let engaged : Bool := match k.phase with
       | .idle | .ended => false
       | .table => !k.tasks.isEmpty
       | _ => true
     if lim ≠ 0 ∧ engaged = true ∧ k.lastIssue + lim ≤ s.tc then [Instr.hangTimeout c] else []))

/-- What a stack does of itself in a TC cycle (12 R256): the alerts of rows whose counter reached the threshold, and a bank opens again after
the longest time. -/
def Stack.selfDuty (k : Stack) (tc : Nat) : Stack :=
  let due := (k.rows.filter (fun r => decide (k.threshold ≤ r.2))).map Prod.fst
  let k := due.foldl (fun k r => k.alert tc (r % 2 ^ 16 / 48) (r % 2 ^ 16 % 48) (r / 2 ^ 16)) k
  { k with closed := k.closed.filter (fun b => decide (tc < b.2 + 576)) }

/-- TC stands still until step 3 of a start has brought up its reference (01 R22, 26 R450). -/
def Mgmt.tcStill (m : Mgmt) : Bool := match m.st with | .starting n => decide (n ≤ 3) | _ => false

/-- One TC cycle passes (01 R22). -/
def State.tick (s : State) : State :=
  if s.mgmt.tcStill then s
  else
  let s := ({ s with tc := s.tc + 1, stks := s.stks.map (fun (e : Nat × Stack) => (e.1, e.2.selfDuty (s.tc + 1))) } : State).mailsDue
  s.oweAll s.duties

/-- The next core has its cycle; after the last one TC advances (log 1). -/
def State.advance (s : State) : State :=
  match s.active.find? (fun c => decide (s.cur < c)) with
  | some c => { s with cur := c }
  | none => ({ s with cur := (s.active.head?).getD s.cur }).tick

/-- BUNDLE_ISSUE (07 R133): a core cycle of the core whose turn it is. -/
def execBundleIssue (s : State) : Host.Outcome State Fault Refusal :=
  let s := { s with fresh := s.fresh + 1 }
  .next (if s.active.contains s.cur then s.coreCycle s.cur else s).advance

end Sys2Proof.Machine
end

