-- ==== Sys2Proof/Machine/MemSteps.lean ====
section
/-! DEFINITION. MemSteps.lean: the steps of memory: reads, stores and atomics at their coherence points (03 R46, 13 R271, R273, 15
R298), the answers that come back (07 R138, 13 R266), recalls (11 R244), translation (11 R247). A step that is not ready owes
itself again (log 1). -/

namespace Sys2Proof.Machine

/-- A write of a core to a tag-0 line of its own cell leaves the line writable on its die (11 R244); every other access recalls it. -/
def State.ownLine (s : State) (c tag pa n : Nat) : State :=
  let d := coreDie c
  if !isNmv c && tag == 0 && dieCell d == paStack pa && s.hasCache d then
    (s.recall pa n (some d)).upDie d (fun x => { x with dirty := (touchedUnits pa n).foldl addNew x.dirty })
  else if tag = 0 then s.recall pa n none
  else s

/-- Insert a store in the order of issue, after those issued before or with it. -/
def insByPend (q : Req) : List Req → List Req
  | [] => [q]
  | y :: ys => if q.pend < y.pend then q :: y :: ys else y :: insByPend q ys

/-- Weak stores of a core whose fault has not been taken to its end (13 R265). -/
def Core.faultedStores (k : Core) : List Req :=
  let weak (l : List PCause) : List Req := l.filterMap (fun c => match c with | .weak _ q => some q | _ => none)
  (match k.mon with | some m => m.store.toList ++ weak m.causes | none => []) ++ weak k.causes

/-- The core's own stores on the path of a load that were issued before it, oldest first: those whose fault it keeps, those under way,
those withheld (13 R264). -/
def State.ownStores (s : State) (r : Req) : List Req :=
  let k := (s.ctxCore r.core r.rid).getD Core.reset
  let early (q : Req) : Bool := match q.k with | .store _ => decide (q.pend ≤ r.pend) | _ => false
  ((k.faultedStores.filter early ++ (vals s.reqs).filter (fun q => q.core == r.core && q.rid == r.rid && early q))
    ++ k.sbuf.filterMap (fun e => match e with
      | .req q => if early q then some q else none
      | _ => none)).foldl (fun l q => insByPend q l) []

/-- Where a store of the core will land, as far as its translation is known (13 R264, log 25). -/
def State.storePa (s : State) (q : Req) : Option Nat :=
  if q.done then some q.pa
  else match s.xlate (engOf q.core) q.va.toNat q.tag .write with
    | .ok pa => some pa
    | _ => none

/-- Lay a store over bytes read at pa (13 R264): by physical address where it is known, else by virtual address. Beside the bytes go the
tags for which the stores laid so far materialise the granule. -/
def State.overlay (s : State) (r : Req) (pa : Nat) (a : List Byte × List Nat) (q : Req) : List Byte × List Nat :=
  if !s.reaches a.2 q.tag pa r.zero 17 r.tag then a
  else
    let at_ := match s.storePa q with
      | some p => (p, pa)
      | none => (q.va.toNat, r.va.toNat)
    ((a.1.zipIdx at_.2).map (fun e =>
      if at_.1 ≤ e.2 ∧ e.2 < at_.1 + q.size then (toBytes q.size q.data.toNat).getD (e.2 - at_.1) 0 else e.1),
     if s.storePa q = none ∨ (s.storePa q).any (fun p => p / 1024 == pa / 1024) then q.tag :: a.2 else a.2)

/-- Read the bytes of a core load at its coherence point, or in a line its die holds (11 R245, 15 R298, R302): an early value may
come from a held line (log 9). A line read is held afterwards. -/
def State.loadBytes (s : State) (id : Nat) (r : Req) (pa : Nat) : List PByte × State :=
  let line := pa / 128
  let key := guestKey r.tag line
  let d := coreDie r.core
  let s1 := s.recallRead pa r.size r.tag r.zero (dieOf? r.core)
  if s.guestable r.core r.tag pa then
    match (look (s.die d).guest key).filter (fun _ => Config.heldLineAnswers id) with
    | some bs => ((bs.drop (pa % 128)).take r.size, s)
    | none =>
      let l := s1.readPa id r.tag (128 * line) 128 r.zero
      ((l.drop (pa % 128)).take r.size, s1.upDie d (fun x => { x with guest := put x.guest key l }))
  else (s1.readPa id r.tag pa r.size r.zero, s1)

/-- A translation fault of a load in the return queue (11 R249, 18 R344): the page request goes at once, where there is room; the fault
waits for its boundary. -/
def State.loadFault (s : State) (id : Nat) (r : Req) (rs : PReason) : State :=
  if rs.resolvable then
    if pageLimit ≤ s.pagesOut r.core then s.owe (.globalReadRequest (.core id))
    else
      let p := s.pageReq r.core r.rid r.owner (engOf r.core) false (.load id) r.va
      let pid := s.nextId
      (s.addReq p).upCtx r.core r.rid (fun k => k.upPend r.pend (fun p => { p with st := .page pid }))
  else (s.dropReq id).upCtx r.core r.rid (fun k => k.upPend r.pend (fun p => { p with st := .fault (pagef rs r.va) }))

/-- A request of a tag that is not LIVE is dropped (03 R53): at the home slice, where it is one of a line of its die's own cell, or at the
RBD; one that has not been translated, and one for no stack, never left its die. -/
def State.dropAt (s : State) (c owner tag : Nat) (pa : Option Nat) (va : Nat) : State :=
  match pa with
  | some p =>
    if (region p = .ordinary ∨ region p = .view) ∧
        (isNmv c ∨ tag ≠ 0 ∨ dieCell (coreDie c) ≠ paStack p ∨ s.hasCache (coreDie c) = false) then s.tagDrop (paStack p) owner p
    else if isNmv c then s.tagDrop (nmvStack c) owner p
    else s.tagDropDie (coreDie c) 0 owner p
  | none => if isNmv c then s.tagDrop (nmvStack c) owner va else s.tagDropDie (coreDie c) 0 owner va

/-- An older load of the core that has not read its data may be of the same bytes (15 R302): its place is compared by physical address
where both are known, else within a page. -/
def State.olderLoad (s : State) (id : Nat) (r : Req) (pa : Nat) : Bool :=
  let meet (a n b m : Nat) : Bool := decide (a < b + m) && decide (b < a + n)
  s.reqs.any (fun e => decide (e.1 < id) && e.2.core == r.core && e.2.rid == r.rid && !e.2.done && (match e.2.k with
    | .load _ => (match s.xlate (engOf r.core) e.2.va.toNat e.2.tag .read with
      | .ok p => meet p e.2.size pa r.size
      | _ => meet (e.2.va.toNat % 4096) e.2.size (r.va.toNat % 4096) r.size)
    | _ => false))

/-- A read reaches its coherence point (03 R46). -/
def State.globalRead (s : State) (id : Nat) : State :=
  let again (s : State) : State := s.owe (.globalReadRequest (.core id))
  match look s.reqs id with
  | none => s
  | some r => match r.k with
    | .load _ =>
      let pa := match s.xlate (engOf r.core) r.va.toNat r.tag .read with | .ok pa => some pa | _ => none
      if s.tagDead r.owner then (s.dropReq id).dropAt r.core r.owner r.tag pa r.va.toNat
      else if ((s.ctxCore r.core r.rid).bind (fun k => k.pendAt r.pend)).isNone then s.dropReq id
      else match s.xlate (engOf r.core) r.va.toNat r.tag .read with
        | .miss => again (s.owe (.atsTranslationReply (engOf r.core) r.va.toNat))
        | .fault rs => s.loadFault id r rs
        | .ok pa =>
          if s.paHeld pa r.size r.tag r.zero ∨ s.olderLoad id r pa = true then again s
          else
            let (ps, s) := (s.fencedAsk pa r.core).loadBytes id r pa
            if anyPoison ps then
              (s.dropReq id).upCtx r.core r.rid (fun k => k.upPend r.pend (fun p => { p with st := .poison (pa / 128 * 128) }))
            else
              let bs := ((s.ownStores r).foldl (s.overlay r pa) (bytesOf ps, [])).1
              (s.upReq id (fun r => { r with data := bytesVec bs, pa := pa, done := true })).owe (.loadDataReturn id)
    | _ => s

/-- Where an access from outside leads (15 R305, 25 R444). -/
inductive OutAt where
  | pa (pa : Nat)
  | refused
  | fenced (die : Nat)
  | wait
  deriving DecidableEq, Repr

/-- What lies at the physical address of an access from outside to n bytes of one granule: the register space is the host's alone (log 13). -/
def State.outsidePa (s : State) (host write : Bool) (pa n : Nat) : OutAt :=
  match region pa with
  | .ordinary => if s.paHeld pa then .wait else .pa pa
  | .view => if write then .refused else if s.paHeld pa n then .wait else .pa pa
  | .hxd => if !host then .refused else match s.fencedAt pa with
    | some d => .fenced d
    | none => .pa pa
  | .pcie _ => .pa pa
  | _ => .refused

/-- The same for the address that an outsider gives: physical for the host; for a device behind a root port, what the IOMMU makes of it
(25 R444), which in endpoint use is disabled (25 R441) and translates canonical addresses alone (11 R246). A port that is down carries nothing
(26 R451); until the start is complete, and without power, nothing is reached (26 R450, R453). -/
def State.outsideAt (s : State) (who : Outsider) (write : Bool) (a n : Nat) : OutAt :=
  if !s.hostUp then .refused else
  match who with
  | .connector => .refused
  | .host => s.outsidePa true write a n
  | .device port =>
    if s.mgmt.endpoint ∨ s.mgmt.pcieDown.contains port ∨ canonical a = false then .refused
    else if s.iommuWalk a = .held then .wait
    else match s.iommuLeaf a with
      | none => .refused
      | some l => if (if write then l.w else l.r) then s.outsidePa false write (l.pa + (a - l.va)) n else .refused

/-- The places of n bytes, by pieces of one 1 KiB block: they wait, they are refused, or they lie at these addresses. -/
def State.outsideSpan (s : State) (who : Outsider) (write : Bool) (a n : Nat) : List (OutAt × Nat) :=
  (pieces a n).map (fun p => (s.outsideAt who write p.1 p.2, p.2))

/-- An access refused: the answer says so; a fenced die counts it (20 R389). -/
def State.outsideRefused (s : State) (ps : List (OutAt × Nat)) : State :=
  let s := { s with answer := none }
  match ps.findSome? (fun p => match p.1 with | .fenced d => some d | _ => none) with
  | some d => s.dieFencedAnswer d s.hostSrc
  | none => s

/-- The IOMMU's own accesses for those of a device behind a root port (11 R246, 25 R444). -/
def State.outsideWalks (s : State) (who : Outsider) (write : Bool) (a n : Nat) : State :=
  match who with
  | .device _ => (pieces a n).foldl (fun s p => s.walked p.1 write) s
  | _ => s

/-- A read from outside, with tag 0, at its coherence points (15 R305, 25 R444). Poison goes with the bytes (20 R379). -/
def State.outsideRead (s : State) (who : Outsider) (a n : Nat) : State :=
  let ps := s.outsideSpan who false a n
  if ps.any (fun p => p.1 = .wait) then s.oweEach (.globalReadRequest (.outside who a n))
  else if ps.any (fun p => match p.1 with | .pa _ => false | _ => true) then s.outsideRefused ps
  else
    let r := ps.foldl (fun (x : List PByte × State) p => match p.1 with
      | .pa pa =>
        let s := x.2.recallRead pa p.2 0 false none
        (x.1 ++ s.readPa s.nextId 0 pa p.2 false, s)
      | _ => x) ([], s.outsideWalks who false a n)
    { r.2 with nextId := r.2.nextId + 1, answer := some r.1 }

/-- A read of the connector's mailbox (26 R449), which a DH64-PK does not have. -/
def State.connRead (s : State) (a n : Nat) : State :=
  { s with answer := if s.mgmt.md then some ((upFrom a n).map (fun o => (s.mgmt.connByte o, false))) else none }

/-- GLOBAL_READ_REQUEST. -/
def execGlobalReadRequest (q : ReadAsk) (s : State) : Host.Outcome State Fault Refusal :=
  .next (match q with
    | .core id => s.globalRead id
    | .outside .connector a n => s.connRead a n
    | .outside who a n => s.outsideRead who a n)

/-- A store found to fault at its home (13 R265, R266, 03 R49): a strong one ends its core's stall with the fault, a weak one is
reported back. -/
def State.storeFault (s : State) (id : Nat) (r : Req) (t : TrapInfo) (strong : Bool) : State :=
  if strong then
    (s.dropReq id).upCtx r.core r.rid (fun k => { k with op := none, causes := k.causes ++ [.opFault t r] })
  else (s.upReq id (fun r => { r with done := false, pa := t.detail.toNat })).owe (.weakStoreFault r.core id)

/-- Perform a store at its home: the state, or CELLFULL (03 R46, R49). `id` is its request. -/
def State.storeAt (s : State) (id : Nat) (r : Req) (bs : List Byte) : Except (BitVec 32) State :=
  match region r.pa with
  | .ordinary => match s.write r.owner r.tag r.pa r.zero bs with
    | .error d => .error d
    | .ok t =>
      let t := if r.tag = 0 then t.cameByWrite s r.pa bs.length else t
      .ok ((t.dropGuest r.core r.tag r.pa bs.length).ownLine r.core r.tag r.pa bs.length)
  | .hxd => .ok (s.regStore r.pa bs (askerOf r.core) (id + 1))
  | _ => .ok s

/-- An older store of the core to a byte of this one has not been performed: two of one path reach their coherence point in the order of
issue (15 R296, R297). The core waits for its own atomics and strong stores. -/
def State.olderStore (s : State) (id : Nat) (r : Req) : Bool :=
  s.reqs.any (fun e => decide (e.1 < id) && e.2.core == r.core && e.2.rid == r.rid && e.2.done && e.2.tag == r.tag
    && decide (e.2.pa < r.pa + r.size) && decide (r.pa < e.2.pa + e.2.size) && (match e.2.k with
      | .store _ => true
      | _ => false))

/-- A store reaches its home (03 R46, 13 R271). One to a register is complete when the step that its write asks for is (05 R83, 12 R254). -/
def State.globalWrite (s : State) (id : Nat) : State :=
  match look s.reqs id with
  | none => s
  | some r => match r.k with
    | .store strong =>
      if s.tagDead r.owner then (s.dropReq id).dropAt r.core r.owner r.tag (some r.pa) r.va.toNat
      else if s.paHeld r.pa r.size r.tag r.zero true ∨ s.olderStore id r = true then s.owe (.globalWriteRequest (.core id))
      else match (if region r.pa = .ordinary then s.matPoison r.tag r.pa r.zero else none) with
        | some p => (s.dropReq id).owe (.tagKill r.owner 1 p)
        | none => match s.storeAt id r (toBytes r.size r.data.toNat) with
          | .error d => s.storeFault id r ⟨.cellfull, d, r.va⟩ strong
          | .ok s => if strong ∨ region r.pa = .hxd then s.owe (.storeAck id) else s.dropReq id
    | _ => s

/-- The number of the requester of an access from outside, in place of a core's. -/
def outsideCore : Nat := 4096

/-- A write from outside, with tag 0, at its coherence points (15 R305, 25 R444): the guest lines of the dies stand until they acquire. One
to a register is answered when it is complete. -/
def State.outsideWrite (s : State) (who : Outsider) (a : Nat) (bs : List Byte) : State :=
  let ps := s.outsideSpan who true a bs.length
  if ps.any (fun p => p.1 = .wait) then s.oweEach (.globalWriteRequest (.outside who a bs))
  else if ps.any (fun p => match p.1 with | .pa _ => false | _ => true) then s.outsideRefused ps
  else
    let id := s.nextId
    let r := { Core.reset.blankReq outsideCore (BitVec.ofNat 64 a) with k := .store true, pa := a, size := bs.length, tc := s.tc }
    let x := ps.foldl (fun (x : List Byte × State) p => match p.1 with
      | .pa pa =>
        let b := x.1.take p.2
        (x.1.drop p.2, match region pa with
          | .ordinary => ((x.2.recall pa p.2 none).memWrite 0 pa b).cameByWrite x.2 pa p.2
          | .hxd => x.2.regStore pa b s.hostSrc (id + 1)
          | _ => x.2)
      | _ => x) (bs, (s.outsideWalks who true a bs.length).addReq r)
    x.2.owe (.storeAck id)

/-- GLOBAL_WRITE_REQUEST. -/
def execGlobalWriteRequest (q : WriteAsk) (s : State) : Host.Outcome State Fault Refusal :=
  .next (match q with
    | .core id => s.globalWrite id
    | .outside .connector a bs => { s.wrConn a bs.length (leNat bs) with answer := if s.mgmt.md then some [] else none }
    | .outside who a bs => s.outsideWrite who a bs)

/-- WEAK_STORE_FAULT (13 R265): a fault found at the home of a released weak store reaches its core, and is kept until it is taken. -/
def execWeakStoreFault (c seq : Nat) (s : State) : Host.Outcome State Fault Refusal :=
  .next (match look s.reqs seq with
    | none => s
    | some r =>
      match r.k with
      | .store _ => (s.dropReq seq).raiseKept c r.rid (.weak ⟨.cellfull, BitVec.ofNat 32 r.pa, r.va⟩ { r with pa := 0 })
      | .gacc _ => (s.dropReq seq).raiseKept c r.rid (.weak ⟨.illop, BitVec.ofNat 32 r.pa, r.va⟩ { r with pa := 0 })
      | _ => s)

/-- The new value of an atomic (13 R273): none where it writes nothing. -/
def atomicNew (k : AtKind) (w : Nat) (sgn : Bool) (old v c : Nat) : Option Nat :=
  match k with
  | .add => some ((old + v) % 2 ^ w)
  | .swp => some v
  | .cas => if old = c then some v else none
  | .min => some (if sgn then (if sx v w < sx old w then v else old) else Nat.min old v)
  | .max => some (if sgn then (if sx old w < sx v w then v else old) else Nat.max old v)

/-- Poison met at the RBD by an atomic (20 R379): the owner tag is killed; under tag 0 the core rewinds. -/
def State.rbdPoison (s : State) (id : Nat) (r : Req) (p : Nat) : State :=
  let s := s.dropReq id
  if r.owner ≠ 0 then s.owe (.tagKill r.owner 1 p)
  else if s.ctxAt r.core r.rid = .running then s.rewindCore r.core .poison p
  else s

/-- Poison met by an atomic (20 R379): at the home slice, which serves a line of tag 0 of the die's own cell (13 R273), the old value is
that of a core load and does not land; elsewhere the RBD meets it. -/
def State.atomicPoison (s : State) (id : Nat) (r : Req) : State :=
  let p := r.pa / 128 * 128
  if r.tag = 0 ∧ region r.pa = .ordinary ∧ !isNmv r.core ∧ paStack r.pa = dieCell (coreDie r.core) then
    (s.dropReq id).upCtx r.core r.rid (fun k =>
      let k := k.upPend r.pend (fun q => { q with st := .poison p })
      { k with op := if k.op = some (.atomic id) then none else k.op })
  else s.rbdPoison id r p

/-- An atomic is performed (13 R273, 15 R308). One that writes nothing reads its place afresh, and no older line answers its core
afterwards (15 R302). -/
def State.performAtomic (s : State) (id : Nat) : State :=
  match look s.reqs id with
  | none => s
  | some r => match r.k with
    | .atomic k w64 sgn v c =>
      let n := if w64 then 8 else 4
      if s.tagDead r.owner then (s.dropReq id).dropAt r.core r.owner r.tag (some r.pa) r.va.toNat
      else if s.paHeld r.pa n r.tag r.zero true ∨ s.olderStore id { r with size := n } = true then s.owe (.atomicPerform id)
      else
        let s := s.recallRead r.pa n r.tag r.zero (dieOf? r.core)
        let ps := s.readPa id r.tag r.pa n r.zero
        let old := leNat (bytesOf ps)
        let m := 2 ^ (8 * n)
        let reply (s : State) : State := (s.upReq id (fun r => { r with data := BitVec.ofNat 1024 old, size := n })).owe (.loadDataReturn id)
        if anyPoison ps then s.atomicPoison id r
        else match atomicNew k (8 * n) sgn old (v.toNat % m) (c.toNat % m) with
          | none =>
            let s := if region r.pa = .ordinary ∧ r.tag = 0 then s.revive r.pa n else s
            reply ((s.fencedAsk r.pa r.core).dropGuest r.core r.tag r.pa n)
          | some x =>
            match (if region r.pa = .ordinary then s.matPoison r.tag r.pa r.zero else none) with
            | some p => s.rbdPoison id r p
            | none => match s.storeAt id r (toBytes n x) with
              | .error d => s.storeFault id { r with data := v.setWidth 1024 } ⟨.cellfull, d, r.va⟩ true
              | .ok s => reply s
    | _ => s

/-- ATOMIC_PERFORM. -/
def execAtomicPerform (id : Nat) (s : State) : Host.Outcome State Fault Refusal := .next (s.performAtomic id)

/-- A store to the register space is not complete (05 R83, 12 R254). -/
def State.ackWaits (s : State) (id : Nat) (r : Req) : Bool := decide (region r.pa = .hxd) && s.storeOpen id r.pa r.size

/-- STORE_ACK (13 R266): the acknowledgement ends the core's stall; to the outside it is the answer. -/
def execStoreAck (id : Nat) (s : State) : Host.Outcome State Fault Refusal :=
  .next (match look s.reqs id with
    | none => s
    | some r =>
      if s.ackWaits id r then s.owe (.storeAck id)
      else if r.core = outsideCore then { s.dropReq id with answer := some [] }
      else (s.dropReq id).upCtx r.core r.rid (fun k => { k with op := if k.op = some (.strong id) then none else k.op }))

/-- The value that a load or an atomic delivers (13 R268, R273). -/
def Req.value (r : Req) : Vec :=
  match r.k with
  | .load sgn => if r.size = 128 then r.data else vecOfWord (loadWord (toBytes r.size r.data.toNat) sgn)
  | _ => r.data

/-- LOAD_DATA_RETURN (07 R138): data reaches the return queue; that of an atomic ends its core's stall. -/
def execLoadDataReturn (id : Nat) (s : State) : Host.Outcome State Fault Refusal :=
  .next (match look s.reqs id with
    | none => s
    | some r =>
      if s.ackWaits id r then s.owe (.loadDataReturn id)
      else (s.dropReq id).upCtx r.core r.rid (fun k =>
        let k := k.upPend r.pend (fun p => { p with val := r.value, st := .ready })
        { k with op := if k.op = some (.atomic id) then none else k.op }))

/-- LINE_RECALL (11 R244): the die gives the line up. Memory holds its bytes at their coherence point throughout. -/
def execLineRecall (line die : Nat) (s : State) : Host.Outcome State Fault Refusal :=
  .next (s.upDie die (fun x => { x with dirty := without x.dirty line }))

/-- Entries of a translation cache (11 R247). -/
def engEntries : Engine → Nat
  | .core _ => 128 | .copy _ => 256 | .rbd _ => 1024

/-- A step that is owed moves bytes of many pages through an engine as one step of this model (11 R247). -/
def State.spansPages (s : State) (e : Engine) : Instr → Bool
  | .copyComplete id | .sleeveFillComplete id => (look s.engs id).any (fun g => decide (e = .copy (coreCluster g.core)))
  | .gatherRequest id | .gatherComplete id => (look s.engs id).any (fun g => decide (e = .rbd g.stack))
  | .pushArrival (.own id) => (look s.engs id).any (fun g => decide (e = .rbd (nmvStack g.core)))
  | .launchStart _ => (match e with | .copy k => k % 8 == 0 | _ => false)
  | .lpMonimg d _ => decide (e = .copy (8 * d))
  | .copyOutComplete k _ | .shareStart k => decide (e = .rbd k)
  | _ => false

/-- What an engine's cache keeps beside a new entry: the oldest entry leaves a full one, once no step that moves the bytes of many pages at
once still needs its entries together (log 116). -/
def State.cacheKept (s : State) (e : Engine) (old : List XEnt) : List XEnt :=
  if s.inflight.any (s.spansPages e) then old else old.take (engEntries e - 1)

/-- ATS_TRANSLATION_REPLY (11 R247): the answer, which grants what the leaf grants, enters the engine's cache. -/
def execAtsTranslationReply (e : Engine) (va : Nat) (s : State) : Host.Outcome State Fault Refusal :=
  let s1 := s.forget e va
  let old := (look s1.xcache (engKey e)).getD []
  .next (if s.iommuWalk va = .held then s.owe (.atsTranslationReply e va)
    else { s1.walked va true with xcache := put s1.xcache (engKey e) (⟨va, s.iommuLeaf va⟩ :: s1.cacheKept e old) })

/-- New contents of the page tables: leaves in place of those that meet a range, and a process context (11 R247, 25 R440). -/
def State.repage (s : State) (va size : Nat) (n : PageNews) : State :=
  { s with
    iommu := n.leaves ++ s.iommu.filter (fun l => !(decide (l.va < va + size) && decide (va < l.va + l.size)))
    roots := match n.root with
      | some (p, x) => put s.roots p x
      | none => s.roots }

/-- An access that was translated in a range has not reached its home (11 R247). -/
def State.xlatedIn (s : State) (va size : Nat) : Bool :=
  let hit (r : Req) : Bool := decide (va ≤ r.va.toNat) && decide (r.va.toNat < va + size)
  let access (k : Core) : Bool := match k.op with
    | some (.access r true) => hit r
    | _ => false
  let open_ (r : Req) : Bool := r.done && r.core != outsideCore && hit r && (match r.k with
    | .load _ | .page _ _ _ | .event _ _ | .lnch | .cancel _ | .tagnew _ _ | .tagret _ | .tagq _ => false
    | _ => true)
  s.reqs.any (fun e => open_ e.2) || (vals s.cores ++ (vals s.saved).map (fun (x : Saved) => x.k)).any (fun k =>
    k.sbuf.any (fun x => match x with | .req r => open_ r | _ => false) || access k || (k.mon.map (fun m => m.op)).any (fun o => match o with
      | some (.access r true) => hit r
      | _ => false))

/-- A sleeping WAITC on a counter of the range translates it again (11 R247). -/
def Core.untranslate (k : Core) (va size : Nat) : Core :=
  match k.phase with
  | .sleep (.ctr a (some _) fd) => if va ≤ a.toNat ∧ a.toNat < va + size then { k with phase := .sleep (.ctr a none fd) } else k
  | _ => k

/-- ATS_INVALIDATION_REQUEST (11 R247): every cache drops what overlaps the range, whose contents may have changed; a sleeping WAITC
translates its counter again. It completes once no access that was translated there is under way. -/
def execAtsInvalidationRequest (range : VaRange) (news : Option PageNews) (s : State) : Host.Outcome State Fault Refusal :=
  let va := range.va
  let size := range.size
  let hits (x : XEnt) : Bool := match x.leaf with
    | some l => decide (l.va < va + size) && decide (va < l.va + l.size)
    | none => decide (va ≤ x.va) && decide (x.va < va + size)
  let s := match news with
    | some n => s.repage va size n
    | none => s
  let s : State := { s with
    xcache := s.xcache.map (fun (n, xs) => (n, xs.filter (fun x => !hits x)))
    cores := s.cores.map (fun (n, k) => (n, k.untranslate va size))
    saved := s.saved.map (fun (n, x) => (n, { x with k := x.k.untranslate va size })) }
  .next (if s.xlatedIn va size then s.oweEach (.atsInvalidationRequest range none)
    else { s with invalidated := s.invalidated + 1 })

end Sys2Proof.Machine
end

