-- ==== Sys2Proof/Machine/CoreSteps.lean ====
section
/-! DEFINITION. CoreSteps.lean: the steps that end a core's stalls and drains: stitch points (20 R380), EXIT (08 R160), the start of
a task (07 R147 to R150), PHASE and FENCE (13 R275, R276, 15 R300), the switch point of slices (11 R242). -/

namespace Sys2Proof.Machine

/-- CODE_BUFFER_FILL (06 R103): a line of the code copy enters the buffer, the oldest leaving a full one (log 21). -/
def execCodeBufferFill (c line : Nat) (s : State) : Host.Outcome State Fault Refusal :=
  .next (s.upCore c (fun k =>
    let l := addNew k.cbuf line
    { k with cbuf := l.drop (l.length - Config.codeLines) }))

/-- Insert into a list in rising order, once. -/
def insertUp (x : Nat) : List Nat → List Nat
  | [] => [x]
  | y :: ys => if x < y then x :: y :: ys else if x = y then y :: ys else y :: insertUp x ys

/-- A core has a context from now on. -/
def State.activate (s : State) (c : Nat) : State := { s with active := insertUp c s.active }
/-- A core has none. -/
def State.deactivate (s : State) (c : Nat) : State := { s with active := without s.active c }

/-- The core is in no freeze: neither in the monitor nor waiting for a page. -/
def Core.unfrozen (k : Core) : Bool := k.mon.isNone && k.await.isEmpty && (match k.out with | .saving _ => false | _ => true)

/-- The stitch point that ends a stitch bundle (20 R380 step 4): the shadow is refreshed; a cancelled context stops here (05 R101), and so
does every context once the package domain has failed (20 R394). With EXIT in the bundle, EXIT's own completion is the stitch point. -/
def State.endStitch (s : State) (c : Nat) : State :=
  if (s.core c).cancelTc.isSome || s.hxd.pkgFailed then s.stopCore c
  else s.upCore c (fun k =>
    if k.exiting then { k with phase := .drain .exit, op := none, stitchOp := none, exiting := false }
    else { k.stitch with phase := .run, op := none, stitchOp := none })

/-- Keep the stitching instruction waiting until it can act. -/
def State.waitAct (s : State) (c : Nat) (o : StitchOp) : State := s.upCore c (fun k => { k with op := some (.act o) })

/-- A request that a stitching instruction of core c makes. -/
def State.stitchReq (s : State) (c : Nat) (k : ReqK) (va : Word) : Req :=
  { (s.core c).blankReq c va with k := k, tc := s.tc, tag := (s.resolve (s.core c) va.toNat).1,
                                  zero := (s.resolve (s.core c) va.toNat).2 }

/-- Make a request whose answer the core waits for. -/
def State.ask (s : State) (c : Nat) (k : ReqK) (va : Word) (sd : BitVec 6) : State :=
  let id := s.nextId
  (s.addReq (s.stitchReq c k va)).upCore c (fun k => { k with op := some (.answer id sd) })

/-- A promise is written to its register (13 R280). -/
def State.givePromise (s : State) (c : Nat) (sd : BitVec 6) (p : Word) : State := s.upCore c (fun k => k.setS sd.toNat p)

/-- Fills of a sleeve in flight (13 R282). -/
def State.fillsOf (s : State) (c n : Nat) : List (Nat × Eng) :=
  s.engs.filter (fun e => e.2.core == c && e.2.rid == (s.core c).rid && (match e.2.k with
    | .fill m rows _ => m.toNat == n && !rows.isEmpty
    | _ => false))

/-- SLSET acts (13 R282): it waits for fills in flight, then the sleeve is set up and its first rows are queued. These fills bear
no promise. -/
def State.actSlset (s : State) (c : Nat) (n : BitVec 3) (sl : Sleeve) : State :=
  if !(s.fillsOf c n.toNat).isEmpty ∨ s.copyFull c then s.waitAct c (.slset n sl)
  else
    let id := s.nextId
    let seq := (s.core c).pseq
    let s := s.upCore c (fun k => { k with sleeves := put k.sleeves n.toNat sl })
    let s := if sl.next = 0 then s
      else
        let s := s.addEng c (.fill n (upFrom 0 sl.next) []) 2 0 sl.src 0
        ({ s with engs := match look s.engs id with
            | some e => put s.engs id { e with broken := true }
            | none => s.engs }.upCore c (fun k => { k with pseq := seq })).owe (.sleeveFillComplete id)
    s.endStitch c

/-- The rows of a sleeve in a list are all filled. -/
def Sleeve.hasAll (x : Sleeve) (rows : List Nat) : Bool := rows.all x.filled.contains

/-- The rows of a promise are filled, or retired since (13 R283). -/
def Sleeve.owedFilled (x : Sleeve) (rows : List Nat) : Bool := rows.all (fun r => decide (r < x.head) || x.filled.contains r)

/-- The cause for which a row among those listed will never be filled (13 R283). -/
def Sleeve.lostIn (x : Sleeve) (rows : List Nat) : Option Nat :=
  (x.lost.find? (fun e => rows.contains e.1)).map Prod.snd

/-- A promise over the rows listed, given to request `id`, as the sleeve stands (13 R281, R283): broken at once over a row that is lost; complete
where every row is filled and it fills none. -/
def State.settlePromise (s : State) (id : Nat) (x : Sleeve) (rows need : List Nat) : State :=
  match look s.engs id, x.lostIn need with
  | some e, some cd =>
    let s := s.breakPromise e cd
    match e.k with
    | .fill n _ _ => { s with engs := if rows.isEmpty then del s.engs id else put s.engs id { e with k := .fill n rows [], broken := true } }
    | _ => s
  | some _, none => if rows.isEmpty && x.hasAll need then { s with engs := del s.engs id } else s
  | none, _ => s

/-- SLADV acts (13 R283): it waits for the rows to be filled and for a queue entry. -/
def State.actSladv (s : State) (c : Nat) (sd : BitVec 6) (n : BitVec 3) (rows : Nat) : State :=
  match look (s.core c).sleeves n.toNat with
  | none => s.endStitch c
  | some x =>
    if s.copyFull c ∨ !x.hasAll (upFrom x.head rows) then s.waitAct c (.sladv sd n rows)
    else
      let head := x.head + rows
      let next := Nat.min (x.next + rows) x.total
      let x' := { x with head := head, next := next, filled := x.filled.filter (fun r => decide (head ≤ r)) }
      let p := s.nextPromise
      let id := s.nextId
      let s := s.upCore c (fun k => { k with sleeves := put k.sleeves n.toNat x' })
      let fills := upFrom x.next (next - x.next)
      let need := upFrom head (next - head)
      let s := ((s.addEng c (.fill n fills need) 2 0 x.src 0).owe (.sleeveFillComplete id)).settlePromise id x' fills need
      (s.givePromise c sd p).endStitch c

/-- Slices that an SLMODE switches: those named that are in another mode (13 R285). -/
def Cluster.toSwitch (k : Cluster) (mask : BitVec 32) (mode : SliceMode) : List Nat :=
  (upFrom 0 32).filter (fun n => mask.getLsbD n && (k.slice n).mode != mode)

/-- The core cycle in which an SLMODE of a core issued that has not taken effect (13 R285). -/
def Core.slmodeTc (k : Core) : Option Nat :=
  match k.op, k.phase, k.stitchOp with
  | some (.switch _ _ _ t), _, _ | some (.act (.slmode _ _ t)), _, _ | none, .drain (.stitch (some (.slmode _ _ t))), _
  | none, .sleep _, some (.slmode _ _ t) => some t
  | _, _, _ => none

/-- A lower core of the cluster has an SLMODE of the same core cycle, which takes effect first (13 R285). -/
def State.slmodeBefore (s : State) (c tc : Nat) : Bool :=
  (clusterCores (coreCluster c)).any (fun d => decide (coreInCluster d < coreInCluster c) && (s.core d).slmodeTc == some tc)

/-- PUSHes of an NMV core outstanding, of whatever share (22 R420). -/
def State.pushesOf (s : State) (c : Nat) : Nat := (s.engs.filter (fun e => e.2.core == c && e.2.eng == 4)).length

/-- The bytes of a PUSH's peer descriptor that must be zero are (22 R420). -/
def descReservedOk (m : Memory) (d : Nat) : Bool :=
  fld (m.nat (d + 2) 2) 12 4 == 0 && m.nat (d + 4) 4 == 0 && m.nat (d + 0x20) 32 == 0

/-- PUSH acts (22 R420). -/
def State.actPush (s : State) (c : Nat) (sd : BitVec 6) (src : Word) (d n : Nat) : State :=
  if 16 ≤ s.pushesOf c then s.waitAct c (.push sd src (BitVec.ofNat 64 d) n)
  else
    let m := (s.core c).local_
    if (s.core c).badLocal.contains (d / 128) then s.rewindCore c .poison (d / 128 * 128)
    else
    let id := s.nextId
    let p := s.nextPromise
    let rcnt := m.nat (d + 0x10) 8
    let s := s.addEng c (.push (m.nat d 2) (m.nat (d + 2) 2 % 4096) (BitVec.ofNat 64 rcnt) (BitVec.ofNat 64 (m.nat (d + 0x18) 8)))
      4 (BitVec.ofNat 64 (m.nat (d + 8) 8)) src n
    let s :=
      if !descReservedOk m d ∨ rcnt % 8 ≠ 0 then s.engFault id 0x15
      else if n = 0 then { s with engs := del s.engs id }
      else s.owe (.pushArrival (.own id))
    (s.givePromise c sd p).endStitch c

/-- A stitching instruction acts (20 R380 step 3). -/
def State.act (s : State) (c : Nat) (o : StitchOp) : State :=
  let s := s.upCore c (fun k => { k with window := true, op := none })
  match o with
  | .slset n sl => s.actSlset c n sl
  | .sladv sd n rows => s.actSladv c sd n rows
  | .slmode mask mode tc =>
    if ((s.cluster (coreCluster c)).toSwitch mask mode).isEmpty && !s.slmodeBefore c tc then s.endStitch c
    else s.upCore c (fun k => { k with op := some (.switch mask mode s.nextId tc) })
  | .lnch a =>
    let id := s.nextId
    (s.ask c .lnch a 0).submit (coreDie c) a 4096 (some c) id
  | .cancel t => (s.cancelToken t).endStitch c
  | .tagnew sd p q =>
    let id := s.nextId
    (s.ask c (.tagnew p q) 0 sd).owe (.tagnewRequest id)
  | .tagret t =>
    let id := s.nextId
    (s.ask c (.tagret t) 0 0).owe (.tagretApply id)
  | .bkdef sd a =>
    let id := s.nextId
    (s.ask c .bkdef a sd).owe (.bkdefRequest id)
  | .push sd a d n => s.actPush c sd a d.toNat n
  | .bkdone => s.upCore c (fun k => { k with op := some .bkdone })

/-- The stitch point of a stitch bundle, once every result has landed (20 R380); a pair whose cycle did not match rewinds first (07 R152). -/
def State.stitchPoint (s : State) (c : Nat) : State :=
  let k := s.core c
  if !k.drained || !k.unfrozen then s
  else if k.mismatched then s.rewindCore c .pairmism 0
  else match k.phase, k.op with
    | .drain (.stitch none), none => s.endStitch c
    | .drain (.stitch (some o)), none => s.act c o
    | .drain (.stitch _), some (.act o) => s.act c o
    | _, _ => s

/-- STITCH_POINT. -/
def execStitchPoint (c : Nat) (s : State) : Host.Outcome State Fault Refusal := .next (s.stitchPoint c)

/-- WAITT_WAKE (08 R162). -/
def execWaittWake (c : Nat) (s : State) : Host.Outcome State Fault Refusal :=
  .next (match (s.core c).phase with
    | .sleep (.tc v) => if v.toNat ≤ s.tc ∧ (s.core c).unfrozen = true then s.wake c else s
    | _ => s)

/-- Requests of the core's context in flight of some kinds. -/
def State.waiting (s : State) (c : Nat) (p : ReqK → Bool) : Bool :=
  s.reqs.any (fun e => e.2.core == c && e.2.rid == (s.core c).rid && p e.2.k)

/-- Loads, stores and atomics (13 R276 class LS). -/
def ReqK.isLs : ReqK → Bool
  | .load _ | .store _ | .atomic _ _ _ _ _ => true
  | _ => false
/-- Accumulate-writes (13 R276 class ACC). -/
def ReqK.isAcc : ReqK → Bool
  | .gacc _ => true
  | _ => false

/-- Every access that a PHASE covers has reached its home, and none is known to fault (13 R275, 15 R300, R306). -/
def State.phaseReady (s : State) (c : Nat) : Bool :=
  let k := s.core c
  k.unfrozen && k.release == 0 && k.firstWeak.isNone && !s.waiting c (fun q => q.isLs || q.isAcc)

/-- BKDONE takes effect (22 R419): when every share of its bucket is done the bucket is DONE and its JCB gets one completion. -/
def State.bkdoneEnd (s : State) (c : Nat) : State :=
  let k := s.core c
  match k.share with
  | none => s
  | some sh =>
    let s := s.setCore c { k with share := some { sh with done := true, flags := k.flags } }
    match look (s.stack sh.stack).buckets sh.bucket with
    | none => s
    | some b =>
      if b.st ≠ .running ∨ b.ident ≠ sh.ident then s
      else
        let b := { b with sharesDone := addNew b.sharesDone sh.w, shareFlags := b.shareFlags ||| k.flags }
        if b.sharesDone.length < b.ways then s.upStack sh.stack (fun x => { x with buckets := put x.buckets sh.bucket b })
        else
          let s := s.upStack sh.stack (fun x => { x with buckets := put x.buckets sh.bucket { b with st := .done } })
          s.jcbPost b.jcb (s.stackDie sh.stack) b.tag .completion (b.flags ||| b.shareFlags)

/-- PHASE_COMPLETE (15 R300): the acquire takes effect and the stall ends; for a BKDONE, the share is done. -/
def State.phaseComplete (s : State) (c : Nat) : State :=
  if !s.phaseReady c then s
  else match (s.core c).op with
    | some (.phase _) => (s.acquire c).upCore c (fun k => { k with op := none })
    | some .bkdone => ((s.acquire c).bkdoneEnd c).endStitch c
    | _ => s

/-- PHASE_COMPLETE. -/
def execPhaseComplete (c : Nat) (s : State) : Host.Outcome State Fault Refusal := .next (s.phaseComplete c)

/-- Every access of a class that the core issued is complete (13 R276). The operand reads of matrix operations are done by the
step itself. -/
def State.classDone (s : State) (c : Nat) : AccClass → Bool
  | .ls => (s.core c).release == 0 && (s.core c).firstWeak.isNone && !s.waiting c ReqK.isLs
  | .acc => (s.core c).release == 0 && (s.core c).firstWeak.isNone && !s.waiting c ReqK.isAcc
  | .mxop => true
  | .copy => s.engsOf c [0, 1] == 0
  | .sleeve => s.engsOf c [2] == 0
  | .gather => s.engsOf c [3] == 0
  | .nmv => s.pushesOf c == 0

/-- An operation reads all the operands it still has to read. -/
def MxOp.readAll (m : MxOp) (cl : Cluster) : Nat → MxOp
  | 0 => m
  | n + 1 => (m.readStep cl).readAll cl n

/-- The matrix operand reads of a core are done (13 R276 class MXOP). -/
def State.readOperands (s : State) (c : Nat) : State :=
  let cl := s.cluster (coreCluster c)
  s.upCore c (fun k => { k with mx := k.mx.map (fun m => m.readAll cl (m.steps - m.got)) })

/-- FENCE_COMPLETE. -/
def execFenceComplete (c : Nat) (s : State) : Host.Outcome State Fault Refusal :=
  .next (match (s.core c).op with
    | some (.fence a b) =>
      if (s.core c).unfrozen && s.classDone c a && s.classDone c b then
        (if a = .mxop ∨ b = .mxop then s.readOperands c else s).upCore c (fun k => { k with op := none })
      else s
    | _ => s)

/-- Scratch bytes that an engine request may touch: first and beyond the last. -/
def Eng.spans (e : Eng) (k : Core) : List (Nat × Nat) :=
  let strided (a : Word) (rows len : Nat) (st : Word) : List (Nat × Nat) :=
    match scratchForm a with
    | none => []
    | some x =>
      let y := ((x : Int) + ((rows - 1 : Nat) : Int) * st.toInt).toNat
      [(Nat.min x y, Nat.max x y + len)]
  match e.k with
  | .copy rows len d st _ => strided e.dst rows len d ++ strided e.src rows len st
  | .fill n _ _ => match look k.sleeves n.toNat with
    | some x => [(x.ring, x.ring + x.slots * x.rstride)]
    | none => []
  | .gather _ n => match scratchForm e.dst with
    | some x => [(x, x + 9 * n + 64)]
    | none => []
  | _ => []

/-- Whether an engine request issued before a number touches a slice of a cluster; a fill's ring is that of its context, wherever it is. -/
def State.engTouches (s : State) (cl slice before : Nat) : Bool :=
  s.engs.any (fun e => decide (e.1 < before) && !isNmv e.2.core && coreCluster e.2.core == cl &&
    (e.2.spans ((s.ctxCore e.2.core e.2.rid).getD (s.core e.2.core))).any (fun p => decide (p.1 < 786432 * (slice + 1)) && decide (786432 * slice < p.2)))

/-- Whether a matrix operation still has to read a slice (10 R214). -/
def MxOp.needs (m : MxOp) (slice : Nat) : Bool :=
  let n := m.got
  let nb' := stepBytes m.op.ty
  let hits (a len : Nat) : Bool := decide (a < 786432 * (slice + 1)) && decide (786432 * slice < a + len)
  decide (n < m.steps) && (hits (m.aAddr + n * nb') ((m.steps - n) * nb') || hits (m.bAddr + n * nb') ((m.steps - n) * nb')
    || (m.op.ss.isSome && hits (m.sAddr + 256 * n) (256 * (m.steps - n))))

/-- A store to a slice that issued before TC tc is still withheld (11 R242, 20 R381). -/
def Core.withholds (k : Core) (slice tc : Nat) : Bool :=
  k.sbuf.any (fun e => match e with
    | .scratch a bs _ t => decide (t < tc) && (sliceOf a == slice || bs.any (fun b => sliceOf b.1 == slice))
    | .req _ => false)

/-- Every access to a slice that was issued before its switch, at tc, is complete (11 R242 step 1): engine requests, matrix operand reads, and
stores, withheld ones among them (log 42). -/
def State.sliceQuiet (s : State) (cl slice before tc : Nat) : Bool :=
  !s.engTouches cl slice before &&
  !(clusterCores cl).any (fun c => (s.core c).mx.any (fun m => m.needs slice) || (s.core c).withholds slice tc)

/-- Bytes of a cluster outside a slice. -/
def Cluster.clearSlice (k : Cluster) (n : Nat) : Cluster :=
  let inS (a : Nat) : Bool := sliceOf a == n
  { k with mem := k.mem.filter (fun e => !inS e.1), poison := k.poison.filter (fun u => !inS (128 * u))
           owner := k.owner.filter (fun e => !inS (128 * e.1)) }

/-- The slices named take their new mode (11 R240, R242 steps 2 and 3): a slice that enters SCRATCH reads zero. Lines whose bucket moves, as
slices leave or join CACHE, are written back and dropped first; a die with no CACHE slice holds none (11 R243, log 98). -/
def State.switchSlices (s : State) (cl : Nat) (ns : List Nat) (mode : SliceMode) : State :=
  let moves := mode = .cache ∨ ns.any (fun n => ((s.cluster cl).slice n).mode == .cache)
  let s := s.setCluster cl (ns.foldl (fun k n => { (k.clearSlice n) with slices := put k.slices n ⟨mode, []⟩ }) (s.cluster cl))
  let d := clusterDie cl
  let stays (l : Nat) : Bool := s.hasCache d && !Config.bucketMoves s.fresh l
  if ns.isEmpty ∨ !moves then s
  else s.upDie d (fun x => { x with dirty := x.dirty.filter stays, guest := x.guest.filter (fun e => stays (e.1 % 2 ^ 49)) })

/-- SLICE_SWITCH_POINT (11 R242, 13 R285): FIFO entries that came since the issue refuse the switch. -/
def State.sliceSwitchPoint (s : State) (c : Nat) : State :=
  match (s.core c).op with
  | some (.switch mask mode before tc) =>
    let cl := coreCluster c
    let ns := (s.cluster cl).toSwitch mask mode
    if !(s.core c).unfrozen || s.slmodeBefore c tc || !ns.all (fun n => s.sliceQuiet cl n before tc) then s
    else match (s.cluster cl).fifoBusy mask mode with
      | some n => (s.upCore c (fun k => { k with op := none })).freeze c
          { t := ⟨.fifobusy, BitVec.ofNat 32 n, 0⟩, pk := .again, fatal := true, pos := (s.core c).lastPos }
      | none => (s.switchSlices cl ns mode).endStitch c
  | _ => s

/-- SLICE_SWITCH_POINT. -/
def execSliceSwitchPoint (c : Nat) (s : State) : Host.Outcome State Fault Refusal := .next (s.sliceSwitchPoint c)

/-- An NMV core is free again; a queued share may start (22 R415, R419). -/
def State.freeNmv (s : State) (c : Nat) : State :=
  let s := ((s.stopCore c).upCore c (fun k => { k with share := none, phase := .idle })).deactivate c
  if (s.stack (nmvStack c)).shares.isEmpty then s else s.owe (.shareStart (nmvStack c))

/-- EXIT completes (08 R160, 05 R98, 22 R419): the point ends and the dependency table chooses the next task; on an NMV core the
share ends, and without BKDONE its bucket fails. What its drain has left pending of ranks 4 to 8 is taken first (log 22). -/
def State.taskExit (s : State) (c : Nat) : State :=
  let k := s.core c
  if !k.drained || !k.unfrozen || k.phase ≠ .drain .exit then s
  else if k.mismatched then s.rewindCore c .pairmism 0
  else if k.cancelTc.isSome then s.stopCore c
  else match s.boundary48 c with
    | some s => s
    | none => match k.share with
      | some sh => if sh.done then s.freeNmv c else (s.endShare c 6).deactivate c
      | none =>
        let s := s.setCore c { k.stitch with phase := .table, running := none }
        match k.rid, k.running with
        | some r, some q =>
          (s.upLaunch r (fun l => { l with done := l.done ++ [q] })).owe (.pointFinish r q)
        | _, _ => s

/-- TASK_EXIT_COMPLETE. -/
def execTaskExitComplete (c : Nat) (s : State) : Host.Outcome State Fault Refusal := .next (s.taskExit c)

/-- PointToIndices (05 R94): the index of each level, walk positions from the innermost out. -/
def pointToIndices (levels : List (Nat × Nat)) (q : Nat) : List Nat :=
  let step (acc : Nat × Tbl Nat) (j : Nat) : Nat × Tbl Nat :=
    match levels.zipIdx.find? (fun e => e.1.2 == j) with
    | some (e, i) => (acc.1 / Nat.max e.1 1, put acc.2 i (acc.1 % Nat.max e.1 1))
    | none => acc
  let r := ((upFrom 0 levels.length).reverse).foldl step (q, [])
  (upFrom 0 levels.length).map (fun i => (look r.2 i).getD 0)

/-- The declared levels of a point, as loop entries (07 R144). -/
def levelEnts (levels : List (Nat × Nat)) (q : Nat) : List LoopEnt :=
  ((pointToIndices levels q).zip levels).map (fun e => ⟨BitVec.ofNat 32 e.1, BitVec.ofNat 32 e.2.1, 0, 0⟩)

/-- What a condition of a task says (07 R149). -/
inductive Cond where
  | holds
  | fails
  | trap (t : TrapInfo)
  | reserved (t : TrapInfo)     -- an entry with a reserved KIND, which traps where the others hold
  deriving DecidableEq, Repr

/-- Send a page request that freezes nothing: for a condition of a core's table, one at a time for a page. -/
def State.tablePage (s : State) (c : Nat) (va : Word) : State :=
  if s.reqs.any (fun e => e.2.core == c && e.2.rid == (s.core c).rid && e.2.va.toNat / 4096 == va.toNat / 4096 && (match e.2.k with
      | .page _ _ .table => true
      | _ => false)) ∨ pageLimit ≤ s.pagesOut c then s
  else s.addReq (s.pageReq c (s.core c).rid (s.core c).ctag.toNat (engOf c) false .table va)

/-- Condition i of task q (07 R148, R149). A counter that has come to hold, and one past its target, hold (16 R313). -/
def State.cond (s : State) (c q i : Nat) : State × Cond :=
  let k := s.core c
  let off := 0x5FC0 + 16 * i
  let a := k.spill.nat off 8
  let rows := k.spill.nat (off + 12) 2
  let kind := k.spill.nat (off + 15) 1 % 16
  let va : Word := BitVec.ofNat 64 (a + k.spill.nat (off + 8) 4 * q)
  let yes (b : Bool) : State × Cond := (s, if b then .holds else .fails)
  if kind = 0 then yes true
  else if kind = 1 then yes (decide (rows ≤ ((look k.sleeves (a % 8)).map (fun x => x.filled.length)).getD 0))
  else if kind = 3 then
    let m : BitVec 16 := BitVec.ofNat 16 a
    yes (k.ev &&& m == m)
  else if 5 ≤ kind then (s, .reserved ⟨.illop, BitVec.ofNat 32 off, 0⟩)
  else if va.toNat % (if kind = 2 then 8 else 64) ≠ 0 ∨ s.inTagged k va.toNat then
    (s, .trap ⟨.illop, BitVec.ofNat 32 (0x1_0000 + off), va⟩)
  else match s.xlate (engOf c) va.toNat 0 .read with
    | .miss => (s.owe (.atsTranslationReply (engOf c) va.toNat), .fails)
    | .fault r =>
      if !r.resolvable then (s, .trap (pagef r va))
      else if k.tfail.contains (va.toNat / 4096) then (s, .trap (pagef .respfail va))
      else (s.tablePage c va, .fails)
    | .ok pa =>
      let n := if kind = 2 then 16 else 64
      let yes (b : Bool) : State × Cond := (s.recallRead pa n 0 false (dieOf? c), if b then .holds else .fails)
      if s.paHeld pa n then (s, .fails)
      else match s.poisonAt (s.freeIx (2 + i)) pa n with
        | some p => (s, .trap ⟨.poison, 0, BitVec.ofNat 64 p⟩)
        | none =>
          if kind = 2 then
            let x := s.counterAt (s.freeIx (2 + i)) pa
            yes (x.holds || x.past || k.came.contains (q, pa))
          else yes (s.jcbAt (s.freeIx (2 + i)) pa != 0)

/-- The conditions of task q: every entry is checked; the first that traps, a reserved KIND where the others hold, or whether all hold
(07 R149). -/
def State.conds (s : State) (c q : Nat) : State × Cond :=
  let r := [0, 1, 2, 3].foldl (fun (x : State × List Cond) i => let y := x.1.cond c q i; (y.1, x.2 ++ [y.2])) (s, [])
  (r.1, match r.2.find? (fun x => match x with | .trap _ => true | _ => false) with
    | some t => t
    | none =>
      if r.2.any (fun x => match x with | .fails => true | _ => false) then .fails
      else (r.2.find? (fun x => match x with | .reserved _ => true | _ => false)).getD .holds)

/-- Insert a table entry by its point. -/
def insByPoint (x : Nat × Nat) : List (Nat × Nat) → List (Nat × Nat)
  | [] => [x]
  | y :: ys => if x.2 < y.2 then x :: y :: ys else y :: insByPoint x ys

/-- The lowest-q task whose conditions all hold, or the trap that an entry raises before one is found (07 R149). -/
def State.pick (s : State) (c : Nat) : List (Nat × Nat) → State × Option (Nat × Nat) × Option TrapInfo
  | [] => (s, none, none)
  | (e, q) :: ts => match s.conds c q with
    | (s, .holds) => (s, some (e, q), none)
    | (s, .trap t) | (s, .reserved t) => (s, none, some t)
    | (s, .fails) => s.pick c ts

/-- Whether a condition block holds an entry whose start acquires (15 R303). -/
def Core.condAcquires (k : Core) : Bool :=
  (upFrom 0 4).any (fun i => [2, 3, 4].contains (k.spill.nat (0x5FC0 + 16 * i + 15) 1 % 16))

/-- A task starts (07 R147, R150, 20 R380): its entry leaves the table, latches are stale, the stacks hold the point's indices, and the
start is a stitch point. A launch's first point on a core, which has fetched nothing yet, acquires (15 R303). -/
def State.startTask (s : State) (c e q : Nat) (levels : List (Nat × Nat)) : State :=
  let s := if (s.core c).condAcquires || (s.core c).cbuf.isEmpty then s.acquire c else s
  let k := s.core c
  let k := { k with tasks := del k.tasks e, running := some q, task := BitVec.ofNat 4 e, stale := [0, 1, 2, 3, 4, 5, 6, 7], ras := []
                    loops := levelEnts levels q, phase := .run, pos := ((look s.codes k.code).map (fun x : Code => x.entry)).getD 0
                    loopDue := false, came := k.came.filter (fun e => e.1 != q) }
  let s := s.setCore c k.stitch
  if k.tasks.isEmpty ∧ k.todo.isEmpty ∧ !k.asked then
    (s.upCore c (fun k => { k with asked := true })).owe (.dynRangeRequest c)
  else s

/-- TASK_START (07 R149). -/
def State.taskStart (s : State) (c : Nat) : State :=
  let k := s.core c
  match k.phase, k.rid.bind (look s.launches) with
  | .table, some l =>
    if !k.unfrozen ∨ l.state ≠ .placed ∨ k.cancelTc.isSome ∨ k.out ≠ .no ∨ (s.die (coreDie c)).st ≠ .live ∨ s.hxd.pkgFailed then s
    else if k.badSpill.contains (0x5FC0 / 128) then s.rewindCore c .poison 0
    else match s.pick c (k.tasks.foldl (fun acc x => insByPoint x acc) []) with
      | (s, some (e, q), _) => s.startTask c e q l.recd.levels
      | (s, none, some t) => if t.cause = .poison then s.rewindCore c .poison t.addr.toNat else s.freeze c
          { t := t, pk := if t.cause = .illop then .again else .next, fatal := true,
            pos := ((look s.codes k.code).map (fun x : Code => x.entry)).getD 0 }
      | (s, none, none) => s
  | _, _ => s

/-- TASK_START. -/
def execTaskStart (c : Nat) (s : State) : Host.Outcome State Fault Refusal := .next (s.taskStart c)

end Sys2Proof.Machine
end

