-- ==== Sys2Proof/Machine/Engines.lean ====
section
/-! DEFINITION. Engines.lean: copy engines (13 R277 to R281), sleeve fills (13 R282, R283), stride gathers (12 R259 to R261): each
request moves its bytes in one step, once every address it needs is translated. -/

namespace Sys2Proof.Machine

/-- The engine that serves a request (11 R247). -/
def Eng.engine (e : Eng) : Engine :=
  match e.k with
  | .gather _ _ => .rbd e.stack
  | .push _ _ _ _ => .rbd (nmvStack e.core)
  | _ => .copy (coreCluster e.core)

/-- A request of an engine is over. -/
def State.engDone (s : State) (id : Nat) : State := { s with engs := del s.engs id }

/-- The promises over rows of sleeve n that its context holds are settled as the sleeve now stands (13 R281, R283): those over a row that is lost
are broken, their fills going on, awaited no longer (13 R276); those whose rows are all filled are complete. -/
def State.settlePromises (s : State) (c : Nat) (rid : Option Nat) (n : BitVec 3) : State :=
  match (s.ctxCore c rid).bind (fun k => look k.sleeves n.toNat) with
  | none => s
  | some x => s.engs.foldl (fun s e => match e.2.k with
    | .fill m rows need =>
      if e.2.core = c ∧ e.2.rid = rid ∧ m = n ∧ need ≠ [] then
        match x.lostIn need with
        | some cd =>
          let s := if e.2.broken then s else s.breakPromise e.2 cd
          { s with engs := if rows.isEmpty then del s.engs e.1 else put s.engs e.1 { e.2 with k := .fill m rows [], broken := true } }
        | none => if rows.isEmpty ∧ x.owedFilled need = true then { s with engs := del s.engs e.1 } else s
      else s
    | _ => s) s

/-- Change sleeve n of a context, wherever it is, and settle the promises over its rows. -/
def State.upSleeve (s : State) (c : Nat) (rid : Option Nat) (n : BitVec 3) (f : Sleeve → Sleeve) : State :=
  (s.upCtx c rid (fun k => { k with sleeves := match look k.sleeves n.toNat with
    | some x => put k.sleeves n.toNat (f x)
    | none => k.sleeves })).settlePromises c rid n

/-- A request of an engine faults and stops (13 R281, R283): its promise is broken. A fill marks its sleeve faulted. -/
def State.engStop (s : State) (id cd : Nat) : State :=
  match look s.engs id with
  | none => s
  | some e => match e.k with
    | .fill n rows _ =>
      let s := if e.broken then s else s.breakPromise e cd
      ((s.dropPages e).engDone id).upSleeve e.core e.rid n (fun x => { x with fault := true, lost := x.lost ++ rows.map (fun r => (r, cd)) })
    | _ => s.engFault id cd

/-- A gather faults (12 R261): its record goes to its context, and its promise is broken. -/
def State.gatherFault (s : State) (id : Nat) (va j spt stack reason code : Nat) : State :=
  match look s.engs id with
  | none => s
  | some e =>
    let r : BitVec 128 := BitVec.ofNat 128 (2 ^ 64 * (va % 2 ^ 64) + 2 ^ 44 * j + 2 ^ 38 * spt + 2 ^ 33 * stack + 2 ^ 8 * reason + code)
    (s.upCtx e.core e.rid (fun k => { k with gfr := put k.gfr e.seqno r })).engFault id 0x13

/-- Send the page request of an engine request, which waits for the reply (11 R249); with no room it tries again. -/
def State.engPage (s : State) (id : Nat) (e : Eng) (va : Nat) (write : Bool) (r : PReason) (again : Instr) : State :=
  let c := match e.k with | .gather _ _ => nmvCore e.stack 0 | _ => e.core
  if pageLimit ≤ s.pagesOut c then s.owe again
  else
    let pid := s.nextId
    let s := s.addReq (s.pageReq c e.rid e.owner e.engine write (.eng id) (BitVec.ofNat 64 va))
    { s with engs := put s.engs id { e with page := some (pid, r) } }

/-- A stretch of bytes that an engine reads or writes: scratch, or physical memory under a tag and policy (03 R43). -/
structure Span where
  scr : Bool
  at_ : Nat
  n : Nat
  tag : Nat := 0
  zero : Bool := false
  deriving DecidableEq, Repr

/-- What keeps an engine from a byte. -/
inductive Obst where
  | miss (va : Nat)
  | page (va : Nat) (r : PReason)
  | held
  | fault (cd : Nat)
  | fenced (die : Nat)
  deriving DecidableEq, Repr

/-- The cause detail of what stops a request for good (13 R281). -/
def Obst.stops : Obst → Option Nat
  | .fault cd => some cd
  | .fenced _ => some 0x14
  | _ => none

/-- Tag and policy of a source address of a request (03 R43): a copy resolved its operand at issue; a fill or gather reads each address as a
core load of it would (log 55). -/
def Eng.srcAt (e : Eng) (va : Nat) : Nat × Bool :=
  match e.k with
  | .fill _ _ _ | .gather _ _ => resolveIn e.wins e.owner va
  | _ => (e.srcTag, e.srcZero)

/-- The source operand is in scratch form: a sleeve's and a gather's is a virtual address (13 R278, R282, R284). -/
def Eng.srcScr (e : Eng) : Bool :=
  match e.k with
  | .fill _ _ _ | .gather _ _ => false
  | _ => isScratchForm e.src

/-- The stretches of a row in scratch, and what ends them early (13 R278). -/
def State.scratchSpans (s : State) (cl : Nat) (row : Word) (n : Nat) : List Span × Option Obst :=
  match scratchForm row with
  | none => ([], some (.fault 0x12))
  | some x => match (s.cluster cl).badRange x n with
    | none => ([{ scr := true, at_ := x, n := n }], none)
    | some b => ((if x < b then [{ scr := true, at_ := x, n := b - x }] else []), some (.fault 0x12))

/-- The stretches of a row in global memory, each in one 1 KiB block, under the tags that `res` gives, and what ends them early. -/
def State.memSpans (s : State) (e : Engine) (row n : Nat) (res : Nat → Nat × Bool) (a : Acc) : List Span × Option Obst :=
  (pieces row n).foldl (fun r p => match r.2 with
    | some _ => r
    | none =>
      let va := p.1 % 2 ^ 64
      let t := res va
      match s.xlate e va t.1 a with
      | .miss => (r.1, some (.miss va))
      | .fault rs => (r.1, some (if rs.resolvable then .page va rs else .fault rs.code))
      | .ok pa => match s.fencedAt pa with
        | some d => (r.1, some (.fenced d))
        | none => if s.paHeld pa p.2 t.1 t.2 (a == .write) then (r.1, some .held)
          else (r.1 ++ [{ scr := false, at_ := pa, n := p.2, tag := t.1, zero := t.2 }], none)) ([], none)

/-- The stretches of a source row. -/
def State.srcSpans (s : State) (e : Eng) (row : Word) (n : Nat) : List Span × Option Obst :=
  if e.srcScr then s.scratchSpans (coreCluster e.core) row n else s.memSpans e.engine row.toNat n e.srcAt .read

/-- The stretches of a destination row. -/
def State.dstSpans (s : State) (e : Eng) (row : Word) (n : Nat) : List Span × Option Obst :=
  if isScratchForm e.dst then s.scratchSpans (coreCluster e.core) row n
  else s.memSpans e.engine row.toNat n (fun _ => (e.dstTag, e.dstZero)) .write

/-- Bytes of stretches. -/
def spanLen (l : List Span) : Nat := (l.map Span.n).sum

/-- The first n bytes of stretches. -/
def spanTake : Nat → List Span → List Span
  | _, [] => []
  | n, p :: ps => if n = 0 then [] else if p.n ≤ n then p :: spanTake (n - p.n) ps else [{ p with n := n }]

/-- Read a stretch with its poison marks (20 R378). -/
def State.readSpan (s : State) (rn cl : Nat) (p : Span) : List PByte :=
  if p.scr then (((s.cluster cl).mem.bytes p.at_ p.n).zipIdx p.at_).map (fun b => (b.1, (s.cluster cl).poison.contains (b.2 / 128)))
  else s.readPa rn p.tag p.at_ p.n p.zero

/-- Lines of the stretches that another die holds writable come back first (11 R244, 15 R298). -/
def State.recallSpans (s : State) (d : Option Nat) (l : List Span) : State :=
  l.foldl (fun s p => if p.scr then s else s.recallRead p.at_ p.n p.tag p.zero d) s

/-- Where the bytes of stretches lie, one by one. -/
def spanPlaces (l : List Span) : List (Bool × Nat) := l.flatMap (fun p => (upFrom p.at_ p.n).map (fun a => (p.scr, a)))

/-- Two sets of stretches share a byte. -/
def spansMeet (a b : List Span) : Bool :=
  a.any (fun p => b.any (fun q => p.scr == q.scr && p.tag == q.tag && decide (p.at_ < q.at_ + q.n) && decide (q.at_ < p.at_ + p.n)))

/-- The byte that byte i of an overlapping copy receives (13 R278, log 16): its source byte as it was, or as the copy itself has made
it. -/
def overlapByte (id : Nat) (src dst : List (Bool × Nat)) (old : List PByte) : Nat → Nat → PByte
  | 0, i => old.getD i (0, false)
  | f + 1, i =>
    if Config.overlapTakesNew (id * 2 ^ 40 + i) then
      match src[i]? with
      | none => (0, false)
      | some a => match dst.findIdx? (fun b => b == a) with
        | some k => if k = i then old.getD i (0, false) else overlapByte id src dst old f k
        | none => old.getD i (0, false)
    else old.getD i (0, false)

/-- Outcome of writing stretches: all of it, CELLFULL's cause, or a kill for poison met by a materialisation. -/
inductive SpanWr where
  | done (s : State)
  | full (s : State)
  | kill (s : State) (pa : Nat)
  deriving DecidableEq, Repr

/-- Write bytes over stretches, in order (13 R278), for request `id`. -/
def State.writeSpans (s : State) (id : Nat) (e : Eng) (cl : Nat) : List Span → List PByte → SpanWr
  | [], _ => .done s
  | p :: ps, bs =>
    let b := bs.take p.n
    let rest (s : State) : SpanWr := s.writeSpans id e cl ps (bs.drop p.n)
    if p.scr then rest ((s.engScratch cl e.owner p.at_ b).getD s)
    else match region p.at_ with
      | .ordinary =>
        match s.matPoison p.tag p.at_ p.zero with
        | some pa => .kill s pa
        | none => match s.writePiece e.owner p.tag p.at_ p.zero b with
          | .error _ => .full s
          | .ok t =>
            let t := if p.tag = 0 then t.cameByWrite s p.at_ p.n else t
            rest ((t.dropGuest e.core p.tag p.at_ p.n).recall p.at_ p.n none)
      | .hxd => rest (s.regStoreP (askerOf e.core) (id + 1) b.length p.at_ b)
      | _ => rest s

/-- Rows of a request, as (destination, source), from row r on. -/
def rowsOf (dst src dstr sstr : Word) (rows : List Nat) : List (Word × Word) :=
  rows.map (fun r => (dst + BitVec.ofNat 64 r * dstr, src + BitVec.ofNat 64 r * sstr))

/-- The stretches of every row, up to the first thing in the way. -/
def State.plan (s : State) (e : Eng) (len : Nat) : List (Word × Word) → List Span × List Span × Option Obst
  | [] => ([], [], none)
  | (d, a) :: rows =>
    let x := s.srcSpans e a len
    let y := s.dstSpans e d len
    match x.2, y.2 with
    | none, none =>
      let r := s.plan e len rows
      (x.1 ++ r.1, y.1 ++ r.2.1, r.2.2)
    | ox, oy =>
      let n := Nat.min (spanLen x.1) (spanLen y.1)
      let o := if spanLen x.1 ≤ spanLen y.1 then (match ox with | some o => some o | none => oy)
        else (match oy with | some o => some o | none => ox)
      (spanTake n x.1, spanTake n y.1, o)

/-- Move the bytes of a plan. -/
def State.moveSpans (s : State) (id : Nat) (e : Eng) (src dst : List Span) : SpanWr :=
  let cl := coreCluster e.core
  let s := s.recallSpans (dieOf? e.core) src
  let bs := src.flatMap (s.readSpan id cl)
  let bs := if spansMeet src dst then
      let ps := spanPlaces src
      let pd := spanPlaces dst
      (upFrom 0 bs.length).map (overlapByte id ps pd bs bs.length)
    else bs
  s.writeSpans id e cl dst bs

/-- Whether a destination row of n bytes touches a FIFO slice (11 R241). -/
def State.fifoDst (s : State) (e : Eng) (row : Word) (n : Nat) : Bool :=
  match (if isScratchForm e.dst then scratchForm row else none) with
  | some x => (upFrom 0 32).any (fun i => decide (((s.cluster (coreCluster e.core)).slice i).mode = .fifo)
      && decide (786432 * i < x + n) && decide (x < 786432 * (i + 1)))
  | none => false

/-- What a request does about something in its way: `again` is its own step. -/
def State.obstacle (s : State) (id : Nat) (e : Eng) (write : Bool) (again : Instr) : Obst → State
  | .miss va => (s.owe (.atsTranslationReply e.engine va)).owe again
  | .page va r => s.engPage id e va write r again
  | .held => s.owe again
  | .fault cd => s.engStop id cd
  | .fenced d => (s.dieFencedAnswer d (askerOf e.core)).engStop id 0x14

/-- A request of a tag that is not LIVE is dropped (03 R53); a switched-out or ended context's requests go on. -/
def State.engDropped (s : State) (id : Nat) (e : Eng) : Option State :=
  if s.tagDead e.owner then some (((s.dropPages e).engDone id).tagDropDie (coreDie e.core) 1 e.owner e.src.toNat) else none

/-- The write side of a plan's obstacle is asked for by a write. -/
def Obst.isWrite : Obst → Bool
  | .page _ .nowrite => true
  | _ => false

/-- A request of an engine meets poison at the RBD (20 R379): its owner tag is killed; under tag 0 it fails and its core rewinds. -/
def State.engPoison (s : State) (id : Nat) (e : Eng) (p : Nat) : State :=
  let s := s.engDone id
  if e.owner ≠ 0 then s.owe (.tagKill e.owner 1 p)
  else if s.ctxAt e.core e.rid = .running then s.rewindCore e.core .poison p
  else s

/-- Add the bytes of a CPYS to its counter (13 R279, 16 R313). -/
def State.counterAdd (s : State) (id : Nat) (e : Eng) (va : Word) (n : Nat) (again : Instr) : State :=
  match s.xlate e.engine va.toNat 0 .write with
  | .miss => (s.owe (.atsTranslationReply e.engine va.toNat)).owe again
  | .fault r => if r.resolvable then s.engPage id e va.toNat true r again else s.engStop id r.code
  | .ok pa =>
    if s.paHeld pa then s.owe again
    else if region pa = .ordinary ∧ s.cellPoisoned 0 pa 16 false = true then s.engPoison id e (pa / 128 * 128)
    else if region pa = .ordinary then
      (s.engDone id).arrive pa e.core e.rid va 2 (BitVec.ofNat 64 n)
    else s.engDone id

/-- One 128-byte unit of a copy or fill whose destination touches a FIFO slice (11 R241): while the slice is full the request waits. -/
def State.fifoUnit (s : State) (id : Nat) (e : Eng) (d a : Word) (again : Instr) : Except State State :=
  let cl := coreCluster e.core
  let x := s.srcSpans e a 128
  match x.2 with
  | some o => .error (s.obstacle id e o.isWrite again o)
  | none =>
    let s := s.recallSpans (dieOf? e.core) x.1
    let bs := x.1.flatMap (s.readSpan id cl)
    match scratchForm d with
    | none => .error (s.engStop id 0x12)
    | some y =>
      if scratchSize ≤ y then .error (s.engStop id 0x12)
      else match ((s.cluster cl).slice (sliceOf y)).mode with
        | .fifo => match s.fifoPut cl (sliceOf y) 4 e.owner (bytesVec (bytesOf bs)) (anyPoison bs) with
          | some s => .ok s
          | none => .error (s.owe again)
        | _ => match s.engScratch cl e.owner y bs with
          | some s => .ok s
          | none => .error (s.engStop id 0x12)

/-- A copy has written a register, and a step that its write asks for is still owed, or its submission held (05 R83, 12 R254). -/
def State.copyOpen (s : State) (id : Nat) (e : Eng) : Bool :=
  match e.k with
  | .copy rows len dstr sstr _ => s.submitHeld id || (rowsOf e.dst e.src dstr sstr (upFrom 0 rows)).any (fun r =>
      !isScratchForm e.dst && (s.memSpans e.engine r.1.toNat len (fun _ => (e.dstTag, e.dstZero)) .write).1.any (fun p =>
        region p.at_ == .hxd && s.storeOpen id p.at_ p.n))
  | _ => false

/-- The bytes of a copy have moved: it is done, once what it has written to registers is complete, and adds to its counter. -/
def State.copyLast (s : State) (id : Nat) (e : Eng) (n : Nat) (ctr : Option Word) : State :=
  let again : Instr := .copyComplete id
  if s.copyOpen id e then { s with engs := put s.engs id { e with prog := n } }.owe again
  else match ctr with
    | none => s.engDone id
    | some va => { s with engs := put s.engs id { e with prog := n } }.counterAdd id { e with prog := n } va n again

/-- COPY_COMPLETE (13 R278, R279): the bytes move, and then the counter is added to. A copy into a FIFO slice moves one unit in each
step. Bytes before a fault stand. -/
def State.copyStep (s : State) (id : Nat) : State :=
  let again : Instr := .copyComplete id
  match look s.engs id with
  | none => s
  | some e => match e.k with
    | .copy rows len dstr sstr ctr =>
      if e.page.isSome then s
      else if s.unmatched e.core e.rid e.iss then s.owe again
      else match s.engDropped id e with
        | some s => s
        | none =>
          let rs := rowsOf e.dst e.src dstr sstr (upFrom 0 rows)
          if (match ctr with | some va => e.owner != 0 && (inWindow e.wins va.toNat).isSome | none => false) then s.engStop id 0x15
          else if e.prog = rows * len then s.copyLast id e (rows * len) ctr
          else if rs.any (fun r => s.fifoDst e r.1 len) then
            if len % 128 ≠ 0 then s.engStop id 0x15
            else
              let r := e.prog / len
              let o := BitVec.ofNat 64 (e.prog % len)
              match s.fifoUnit id e (e.dst + BitVec.ofNat 64 r * dstr + o) (e.src + BitVec.ofNat 64 r * sstr + o) again with
              | .error s => s
              | .ok s => { s with engs := put s.engs id { e with prog := e.prog + 128 } }.owe again
          else
            let p := s.plan e len rs
            match p.2.2 with
            | some o =>
              if o.stops.isNone then s.obstacle id e o.isWrite again o
              else match s.moveSpans id e p.1 p.2.1 with
                | .done s => s.obstacle id e false again o
                | .full s => s.engStop id 0x11
                | .kill s pa => (s.engDone id).owe (.tagKill e.owner 1 pa)
            | none => match s.moveSpans id e p.1 p.2.1 with
              | .done s => s.copyLast id e (rows * len) ctr
              | .full s => s.engStop id 0x11
              | .kill s pa => (s.engDone id).owe (.tagKill e.owner 1 pa)
    | _ => s

/-- COPY_COMPLETE. -/
def execCopyComplete (id : Nat) (s : State) : Host.Outcome State Fault Refusal := .next (s.copyStep id)

/-- A row of a sleeve is filled (13 R283): it counts as ready, and the request goes on with the rest. -/
def State.rowFilled (s : State) (id : Nat) (e : Eng) (n : BitVec 3) (row : Nat) (rows need : List Nat) : State :=
  let s := { s with engs := if rows.isEmpty && need.isEmpty then del s.engs id else put s.engs id { e with k := .fill n rows need, prog := 0 } }
  let s := s.upSleeve e.core e.rid n (fun x => if x.head ≤ row then { x with filled := addNew x.filled row } else x)
  if (look s.engs id).isNone then s else s.owe (.sleeveFillComplete id)

/-- SLEEVE_FILL_COMPLETE (13 R282, R283): one row moves to its ring slot. -/
def State.fillStep (s : State) (id : Nat) : State :=
  let again : Instr := .sleeveFillComplete id
  match look s.engs id with
  | none => s
  | some e => match e.k with
    | .fill n rows need =>
      if e.page.isSome then s
      else if s.unmatched e.core e.rid e.iss then s.owe again
      else match s.engDropped id e with
        | some s => s
        | none => match (s.ctxCore e.core e.rid).bind (fun k => look k.sleeves n.toNat) with
          | none => s.engDone id
          | some x => match rows with
            | [] => s
            | r :: rs =>
              let slot := 0xF0 * 2 ^ 56 + (x.ring + r % x.slots * x.rstride)
              let d : Word := BitVec.ofNat 64 slot
              let a := x.src + BitVec.ofNat 64 r * x.sstride
              let e1 := { e with dst := d }
              if 2 ^ 25 ≤ x.ring + r % x.slots * x.rstride then s.engStop id 0x12
              else if s.fifoDst e1 d x.rowlen then
                let o := BitVec.ofNat 64 e.prog
                match s.fifoUnit id e1 (d + o) (a + o) again with
                | .error s => s
                | .ok s =>
                  if x.rowlen ≤ e.prog + 128 then s.rowFilled id e n r rs need
                  else { s with engs := put s.engs id { e with prog := e.prog + 128 } }.owe again
              else
                let p := s.plan e1 x.rowlen [(d, a)]
                match p.2.2 with
                | some o =>
                  if o.stops.isNone then s.obstacle id e o.isWrite again o
                  else match s.moveSpans id e1 p.1 p.2.1 with
                    | .done s | .full s | .kill s _ => s.obstacle id e false again o
                | none => match s.moveSpans id e1 p.1 p.2.1 with
                  | .done s | .full s | .kill s _ => s.rowFilled id e n r rs need
    | _ => s

/-- SLEEVE_FILL_COMPLETE. -/
def execSleeveFillComplete (id : Nat) (s : State) : Host.Outcome State Fault Refusal := .next (s.fillStep id)

/-- PROMISE_EXPIRY (13 R281): TC reaches the promise of a request that is not complete. -/
def execPromiseExpiry (id : Nat) (s : State) : Host.Outcome State Fault Refusal :=
  .next (match look s.engs id with
    | none => s
    | some e =>
      if e.broken ∨ s.tc < e.promise then s
      else { (s.breakPromise e 0x10) with engs := put s.engs id { e with broken := true } })

/-- Cause details with which a request may stop (13 R281). -/
def stopCauses : List Nat := [1, 2, 3, 4, 5, 6, 7, 0x11, 0x12, 0x13, 0x14, 0x15]

/-- The outside finds a fault of a request (13 R281): a gather's is of its source or its destination, and delivers its record (12 R261). -/
def State.requestFault (s : State) (id cd : Nat) : State :=
  match look s.engs id with
  | none => s
  | some e => match e.k with
    | .gather spt _ =>
      if 1 ≤ cd ∧ cd ≤ 7 then s.gatherFault id e.src.toNat 0 spt e.stack cd 6
      else if cd = 0x12 then s.gatherFault id e.src.toNat 0 spt e.stack 0 7
      else if cd = 0x14 then s.engStop id cd
      else s
    | _ => s.engStop id cd

/-- ENGINE_REQUEST_FAULT. -/
def execEngineRequestFault (id cd : Nat) (s : State) : Host.Outcome State Fault Refusal :=
  .next (if stopCauses.contains cd then s.requestFault id cd else s)

end Sys2Proof.Machine
end

