-- ==== Sys2Proof/Machine/Gather.lean ====
section
/-! DEFINITION. Gather.lean: stride gathers (12 R259 to R261) at the RBD that serves them. -/

namespace Sys2Proof.Machine

/-- CTRL fields of a stride pattern (12 R259). -/
def FWin.wv (p : FWin) : Bool := bit p.ctrl.toNat 22
/-- Inner count N1. -/
def FWin.n1 (p : FWin) : Nat := fld (p.at 0) 32 32
/-- Inner stride S1. -/
def FWin.s1 (p : FWin) : Int := sx (p.at 1) 64
/-- Outer stride S2. -/
def FWin.s2 (p : FWin) : Int := sx (p.at 2) 64
/-- The window that a pattern names, when it uses one. -/
def Hxd.patWin (h : Hxd) (p : FWin) : Option FWin := if p.wv then some (h.win (fld p.ctrl.toNat 16 6)) else none

/-- What a gather moves: its element type, its window, its pattern. -/
structure GPlan where
  ty : ElemType
  win : Option FWin
  pat : FWin
  count : Nat
  deriving DecidableEq, Repr

/-- Element offset of out[j] (12 R260). N1 is 1 to 1,048,576 (R259): 0 counts as 1, and a larger value as it stands (log 114). -/
def GPlan.elem (g : GPlan) (j : Nat) : Int :=
  ((j % Nat.max g.pat.n1 1 : Nat) : Int) * g.pat.s1 + ((j / Nat.max g.pat.n1 1 : Nat) : Int) * g.pat.s2

/-- Bytes read for an element: a T6 element's group of three (04 R57). -/
def GPlan.bytes (g : GPlan) : Nat := if g.ty = .t6 then 3 else g.ty.width / 8

/-- Virtual address of the bytes that hold out[j], for a gather at va. -/
def GPlan.addr (g : GPlan) (va : Word) (j : Nat) : Word :=
  if g.ty = .t6 then va + BitVec.ofInt 64 (3 * (g.elem j / 4)) else va + BitVec.ofInt 64 (g.elem j * (g.bytes : Int))

/-- Index in the window's source of the element of out[j], whose bytes are at pa. -/
def GPlan.index (g : GPlan) (w : FWin) (pa j : Nat) : Int :=
  if g.ty = .t6 then 4 * (((pa : Int) - w.at 0) / 3) + g.elem j % 4 else ((pa : Int) - w.at 0) / (g.bytes : Int)

/-- The window expands the elements (12 R260). -/
def GPlan.expands (g : GPlan) : Bool := match g.win with | some w => w.fill == 1 || w.fill == 2 | none => false

/-- Bits written for each element. -/
def GPlan.outBits (g : GPlan) : Nat :=
  match g.win with
  | some w => if w.fill = 1 then 16 else if w.fill = 2 then 32 else memWidth g.ty
  | none => memWidth g.ty

/-- The scales that move with the elements: PASS with SBLK not 0 (12 R260). -/
def GPlan.passScales (g : GPlan) : Option FWin :=
  match g.win with
  | some w => if w.fill = 0 ∧ w.sblk ≠ 0 then some w else none
  | none => none

/-- Where the scale of out[j], whose bytes are at pa, lies: for elements that an expanding window decodes with scales (04 R75). -/
def GPlan.scaleAt (g : GPlan) (pa j : Nat) : Option Nat :=
  match g.win with
  | some w => if g.expands && w.sblk != 0 then some (w.at 2 + (g.index w pa j).toNat / 2 ^ w.sblk) else none
  | none => none

/-- Bits of out[j] from the bytes read and its scale (12 R260, 04 R75). -/
def GPlan.out (g : GPlan) (j : Nat) (bs : List Byte) (c : Nat) : Nat :=
  let raw := if g.ty = .t6 then leNat bs / 2 ^ (6 * (g.elem j % 4).toNat) % 64 else leNat bs
  match g.win with
  | some w => if g.expands then w.decode g.ty raw c else raw
  | none => raw

/-- Faults found before anything is translated (12 R261): the code. -/
def State.gatherBad (s : State) (spt count : Nat) : Except Nat GPlan :=
  let p := s.hxd.pat spt
  let w := s.hxd.patWin p
  let off : Bool := match w with | some w => !w.en | none => false
  if !p.en || off then .error 1
  else
    let ty := match w with | some w => w.fmt | none => p.fmt
    match ty with
    | none => .error 2
    | some ty =>
      if w.isNone ∧ (ty = .untyped ∨ ty = .t6 ∨ ty = .mom8) then .error 2
      else .ok ⟨ty, w, p, count⟩

/-- GATHER_REQUEST (12 R260): the RBD of the requester's cell translates the source address, and the RBD of its stack serves the
request. -/
def State.gatherReq (s : State) (id : Nat) : State :=
  let again : Instr := .gatherRequest id
  match look s.engs id with
  | none => s
  | some e => match e.k with
    | .gather spt _ =>
      let k := dieCell (coreDie e.core)
      let e := { e with stack := k }
      if e.page.isSome then s
      else if s.tagDead e.owner then ((s.dropPages e).engDone id).tagDrop k e.owner e.src.toNat
      else if s.stackShut k ∨ s.unmatched e.core e.rid e.iss = true then s.owe again
      else match s.xlate (.rbd k) e.src.toNat (e.srcAt e.src.toNat).1 .read with
        | .miss => (s.owe (.atsTranslationReply (.rbd k) e.src.toNat)).owe again
        | .fault r => if r.resolvable then s.engPage id e e.src.toNat false r again
            else s.gatherFault id e.src.toNat 0 spt k r.code 6
        | .ok pa =>
          let st := match region pa with
            | .ordinary | .view => paStack pa
            | _ => k
          { s with engs := put s.engs id { e with stack := st } }.owe (.gatherComplete id)
    | _ => s

/-- GATHER_REQUEST. -/
def execGatherRequest (id : Nat) (s : State) : Host.Outcome State Fault Refusal := .next (s.gatherReq id)

/-- What element j of a gather translates to. -/
def State.gatherPa (s : State) (e : Eng) (g : GPlan) (j : Nat) : Except Obst Nat :=
  let va := (g.addr e.src j).toNat
  match s.xlate (.rbd e.stack) va (e.srcAt va).1 .read with
  | .miss => .error (.miss va)
  | .fault r => .error (if r.resolvable then .page va r else .fault r.code)
  | .ok pa => match s.fencedAt pa with
    | some d => .error (.fenced d)
    | none => .ok pa

/-- The elements that translate, with their numbers. -/
def gatherPlaces (xs : List (Except Obst Nat)) : List (Nat × Nat) :=
  (xs.zipIdx).filterMap (fun x => match x.1 with | .ok pa => some (x.2, pa) | .error _ => none)

/-- The first element that does not, and why. -/
def gatherEnd (xs : List (Except Obst Nat)) : Option (Nat × Obst) :=
  (xs.zipIdx).findSome? (fun x => match x.1 with | .ok _ => none | .error o => some (x.2, o))

/-- An element whose translation is not known yet. -/
def gatherMiss (xs : List (Except Obst Nat)) : Option Nat :=
  xs.findSome? (fun x => match x with | .error (.miss va) => some va | _ => none)

/-- The inner count as the gather runs with it (log 114). -/
def GPlan.inner (g : GPlan) : Nat := Nat.max g.pat.n1 1

/-- A gather whose source is not on a boundary of its elements (12 R261). -/
def GPlan.offBoundary (g : GPlan) (e : Eng) (pas : List (Nat × Nat)) : Bool :=
  match g.win, pas.find? (fun x => x.1 == 0) with
  | some w, some p => ((p.2 : Int) - w.at 0) % (g.bytes : Int) != 0
  | none, _ => e.src.toNat % g.bytes != 0
  | _, none => false

/-- Whole-request faults that follow from the elements' addresses (12 R261), of every element that translates: more than one stack, outside the
window, a block split (a source's short last block is no whole block, log 115), a bad count. -/
def GPlan.wholeFault (g : GPlan) (e : Eng) (pas : List (Nat × Nat)) : Option Nat :=
  let idx (w : FWin) : List (Int × Nat) := pas.map (fun x => (g.index w x.2 x.1, x.1))
  if pas.any (fun p => (region p.2 == .ordinary || region p.2 == .view) && paStack p.2 != e.stack) then some 3
  else if (match g.win with
      | some w => (idx w).any (fun i => decide (i.1 < 0) || decide ((w.count : Int) ≤ i.1))
      | none => false) then some 4
  else if (match g.passScales with
      | some w => decide (g.pat.s1 ≠ 1) || g.inner % 2 ^ w.sblk != 0 || g.count % g.inner % 2 ^ w.sblk != 0 ||
          (idx w).any (fun x => x.2 % g.inner == 0 && decide (x.1 % (2 ^ w.sblk : Nat) ≠ 0))
      | none => false) then some 5
  else if g.count = 0 ∨ 1048576 < g.count ∨ g.offBoundary e pas = true then some 8
  else none

/-- Bits packed one after another, each of w bits, over the bytes already there (04 R57). -/
def packBits (w : Nat) (xs : List Nat) (old : List Byte) : List Byte :=
  let v := xs.foldr (fun x n => x % 2 ^ w + 2 ^ w * n) 0
  let nb' := w * xs.length
  let len := (nb' + 7) / 8
  let keep := leNat (old.take len) / 2 ^ nb' * 2 ^ nb'
  toBytes len (v + keep)

/-- Tag and policy under which a gather reads out[j] (03 R43); its scale, which has no virtual address, is read under the same (log 55). -/
def GPlan.tagOf (g : GPlan) (e : Eng) (j : Nat) : Nat × Bool := e.srcAt (g.addr e.src j).toNat

/-- Bytes of one scale (04 R75). -/
def GPlan.scaleLen (g : GPlan) : Nat := if g.ty = .mom8 then 4 else 1

/-- The blocks moved, in order of first use, each with the place of its scale and the element that uses it first (12 R260). -/
def GPlan.scaleBlocks (g : GPlan) (w : FWin) (pas : List (Nat × Nat)) : List (Nat × Nat) :=
  (pas.foldl (fun (acc : List (Nat × Nat)) x =>
    let b := (g.index w x.2 x.1).toNat / 2 ^ w.sblk
    if acc.any (fun y => y.1 == b) then acc else acc ++ [(b, x.1)]) []).map (fun b => (w.at 2 + b.1 * g.scaleLen, b.2))

/-- The scales that a gather of these elements reads: their places, bytes, and elements (12 R260, 04 R75). -/
def GPlan.scaleReads (g : GPlan) (pas : List (Nat × Nat)) : List (Nat × Nat × Nat) :=
  (pas.filterMap (fun x => (g.scaleAt x.2 x.1).map (fun a => (a, 1, x.1)))) ++
  (match g.passScales with
    | some w => (g.scaleBlocks w pas).map (fun b => (b.1, g.scaleLen, b.2))
    | none => [])

/-- A read of a gather waits for its stack, a bank or a salvage (12 R256, R258, 20 R389). -/
def State.gatherHeld (s : State) (e : Eng) (g : GPlan) (pas : List (Nat × Nat)) : Bool :=
  (pas.map (fun x => (x.2, g.bytes, x.1)) ++ g.scaleReads pas).any (fun x => s.paHeld x.1 x.2.1 (g.tagOf e x.2.2).1 (g.tagOf e x.2.2).2)

/-- What a gather reads is recalled (15 R298), and its rows open (12 R256). -/
def State.gatherRecall (s : State) (e : Eng) (g : GPlan) (pas : List (Nat × Nat)) : State :=
  (pas.map (fun x => (x.2, g.bytes, x.1)) ++ g.scaleReads pas).foldl
    (fun s x => s.recallRead x.1 x.2.1 (g.tagOf e x.2.2).1 (g.tagOf e x.2.2).2 none) s

/-- The scale bytes of the blocks moved (12 R260). -/
def State.gatherScales (s : State) (id : Nat) (e : Eng) (g : GPlan) (bs : List (Nat × Nat)) : List PByte :=
  bs.flatMap (fun b => s.readPa id (g.tagOf e b.2).1 b.1 g.scaleLen (g.tagOf e b.2).2)

/-- Elements whose destination bytes all lie in SCRATCH slices: the number of them before the first that do not (11 R240). -/
def gatherFits (k : Cluster) (d w n : Nat) : Nat :=
  let len := (w * n + 7) / 8
  match k.badRange d len with
  | none => n
  | some b => Nat.min n (8 * (b - d) / w)

/-- The blocks whose scale bytes follow the elements of a gather to d (12 R260): where they begin, and the blocks. -/
def GPlan.tail (g : GPlan) (d : Nat) (pas : List (Nat × Nat)) : Nat × List (Nat × Nat) :=
  ((d + (g.count * memWidth g.ty + 7) / 8 + 63) / 64 * 64, match g.passScales with
    | some w => g.scaleBlocks w pas
    | none => [])

/-- The elements that a gather can write: those before the first whose own bytes, or whose block's scale bytes, would lie outside SCRATCH (11
R240, 12 R261). -/
def GPlan.fits (g : GPlan) (k : Cluster) (d : Nat) (pas : List (Nat × Nat)) : Nat :=
  let n := gatherFits k d g.outBits pas.length
  let t := g.tail d pas
  match k.badRange t.1 (g.scaleLen * t.2.length) with
  | none => n
  | some b => match t.2[(b - t.1) / g.scaleLen]? with
    | some x => Nat.min n x.2
    | none => n

/-- The bytes that the elements listed write at d, with their poison marks (12 R260, 20 R378). -/
def State.gatherBytes (s : State) (id : Nat) (e : Eng) (g : GPlan) (d : Nat) (pas : List (Nat × Nat)) : List PByte :=
  let w := g.outBits
  let src := pas.map (fun p =>
    let t := g.tagOf e p.1
    (p.1, s.readPa id t.1 p.2 g.bytes t.2, match g.scaleAt p.2 p.1 with
      | some a => s.readPa id t.1 a 1 t.2
      | none => []))
  let bs := packBits w (src.map (fun p => g.out p.1 (bytesOf p.2.1) (leNat (bytesOf p.2.2))))
    ((s.cluster (coreCluster e.core)).mem.bytes d ((w * pas.length + 7) / 8))
  let bad := (src.filter (fun p => anyPoison p.2.1 || anyPoison p.2.2)).map (fun p => (d * 8 + w * p.1) / 8)
  (bs.zipIdx d).map (fun b => (b.1, bad.any (fun x => decide (x ≤ b.2) && decide (b.2 ≤ x + (w - 1) / 8))))

/-- The elements before the end of a gather move (12 R260, R261): to the first destination fault, then to what ended its source, and with no
fault the scale bytes follow. -/
def State.gatherMove (s : State) (id : Nat) (e : Eng) (g : GPlan) (spt d : Nat) (pas : List (Nat × Nat)) (o : Option (Nat × Obst)) : State :=
  let cl := coreCluster e.core
  let n := g.fits (s.cluster cl) d pas
  let t := g.tail d pas
  let s := s.gatherRecall e g (pas.take n)
  let s1 := (s.engScratch cl e.owner d (s.gatherBytes id e g d (pas.take n))).getD s
  if n < pas.length then s1.gatherFault id (g.addr e.src n).toNat n spt e.stack 0 7
  else match o with
    | some (_, .fenced f) => (s1.dieFencedAnswer f (askerOf e.core)).engStop id 0x14
    | some (j, .fault cd) => s1.gatherFault id (g.addr e.src j).toNat j spt e.stack cd 6
    | _ => ((s1.engScratch cl e.owner t.1 (s1.gatherScales id e g t.2)).getD s1).engDone id

/-- GATHER_COMPLETE (12 R260, R261). -/
def State.gatherStep (s : State) (id : Nat) : State :=
  let again : Instr := .gatherComplete id
  match look s.engs id with
  | none => s
  | some e => match e.k, scratchForm e.dst with
    | .gather spt count, some d =>
      if e.page.isSome then s
      else if s.tagDead e.owner then ((s.dropPages e).engDone id).tagDrop e.stack e.owner e.src.toNat
      else if s.stackShut e.stack then s.owe again
      else match s.gatherBad spt count with
        | .error c => s.gatherFault id 0 0 spt e.stack 0 c
        | .ok g =>
          if count = 0 ∨ 1048576 < count then s.gatherFault id 0 0 spt e.stack 0 8
          else
            let xs := (upFrom 0 count).map (s.gatherPa e g)
            let o := gatherEnd xs
            let pas := (gatherPlaces xs).filter (fun x => match o with | some (j, _) => decide (x.1 < j) | none => true)
            match gatherMiss xs, g.wholeFault e (gatherPlaces xs) with
            | some va, _ => (s.owe (.atsTranslationReply (.rbd e.stack) va)).owe again
            | none, some c => s.gatherFault id 0 0 spt e.stack 0 c
            | none, none => match o with
              | some (_, .page va r) => s.engPage id e va false r again
              | _ => if s.gatherHeld e g pas then s.owe again else s.gatherMove id e g spt d pas o
    | _, _ => s

/-- GATHER_COMPLETE. -/
def execGatherComplete (id : Nat) (s : State) : Host.Outcome State Fault Refusal := .next (s.gatherStep id)

end Sys2Proof.Machine
end

