-- ==== Sys2Proof/Machine/Signals.lean ====
section
/-! DEFINITION. Signals.lean: signals reach their objects (16 R311 to R318): counters, event bits (08 R163, 16 R322, R323), job
control blocks. -/

namespace Sys2Proof.Machine

/-- The die from which a signal of a core comes (05 R86): an NMV core's is its stack's. -/
def State.homeDie (s : State) (c : Nat) : Nat := if isNmv c then s.stackDie (nmvStack c) else coreDie c

/-- A signal on an object (16 R310). -/
def ReqK.signals : ReqK → Bool
  | .cpost _ | .carrive _ _ | .jdone | .jraise _ _ | .jflag _ => true
  | _ => false

/-- A post by the hardware that has waited: it meets poison as a post (20 R379). -/
def Req.posts (r : Req) : Bool := match r.k with | .jpost _ _ => true | _ => false

/-- An older signal of the core to an object has not been performed: signals of one core to one object keep their order (16 R331). -/
def State.olderSignal (s : State) (id : Nat) (r : Req) : Bool :=
  s.reqs.any (fun e => decide (e.1 < id) && e.2.core == r.core && e.2.rid == r.rid && e.2.pa == r.pa && e.2.k.signals)

/-- A request on an object of n bytes at the RBD that homes it (16 R311): dropped for a tag that is not LIVE (03 R53), held while its
stack is shut, refused by poison (20 R379), and otherwise performed as one step after a recall. Outside ordinary memory there is
no object, and the signal has no effect. -/
def State.onObject (s : State) (id n : Nat) (again : Instr) (f : Req → State → State) : State :=
  match look s.reqs id with
  | none => s
  | some r =>
    if s.tagDead r.owner then (s.dropReq id).tagDrop (paStack r.pa) r.owner r.pa
    else if s.paHeld r.pa ∨ s.olderSignal id r = true then s.owe again
    else if region r.pa ≠ .ordinary then s.dropReq id
    else if s.cellPoisoned 0 r.pa n false ∧ !r.posts then s.rbdPoison id r (r.pa / 128 * 128)
    else f r ((s.dropReq id).recall r.pa n none)

/-- COUNTER_POST (16 R313): a CNTX reaches its counter. -/
def execCounterPost (id : Nat) (s : State) : Host.Outcome State Fault Refusal :=
  .next (s.onObject id 16 (.counterPost id) (fun r s => match r.k with
    | .cpost t => s.post r.pa r.core r.rid r.va t
    | _ => s))

/-- COUNTER_ARRIVE (16 R313): a CNTA reaches its counter. -/
def execCounterArrive (id : Nat) (s : State) : Host.Outcome State Fault Refusal :=
  .next (s.onObject id 16 (.counterArrive id) (fun r s => match r.k with
    | .carrive n src => s.arrive r.pa r.core r.rid r.va src n
    | _ => s))

/-- OVERARR_NOTICE (16 R314): the report reaches its core, or the mailbox of the context (18 R365 kind 4). -/
def execOverarrNotice (c detail : Nat) (s : State) : Host.Outcome State Fault Refusal :=
  let d : BitVec 32 := BitVec.ofNat 32 detail
  let n := detail / 2 ^ 32
  .next (s.raise c (if n = 0 then (s.core c).rid else some (n - 1)) (.overarr d) (some (4, d.setWidth 64)))

/-- Events that a pending WAITE of the core takes (16 R323). -/
def Core.waitMask (k : Core) : BitVec 16 :=
  match k.phase with
  | .sleep (.ev m) => if k.mon.isNone then m else 0
  | _ => 0

/-- Bits arrive at a core (08 R163, 16 R323): they are ORed into E, and an interrupting one raises INTR. -/
def Core.takeEvents (k : Core) (bits : BitVec 16) : Core :=
  let k1 := { k with ev := k.ev ||| bits }
  if bits &&& k.mask &&& ~~~k.waitMask = 0 then k1
  else { k1 with causes := k1.causes ++ [.intr (0x0001_0000 + (bits &&& k.mask).setWidth 32)] }

/-- An EVSIG that has left its core has yet to reach core c with bits. -/
def Req.eventFor (r : Req) (c bits : Nat) : Bool :=
  r.left && (match r.k with
    | .event ts m => ts.contains c && m.toNat == bits
    | _ => false)

/-- An older event of the same core has yet to reach the target (16 R331). -/
def State.olderEvent (s : State) (c id : Nat) (r : Req) : Bool :=
  s.reqs.any (fun e => decide (e.1 < id) && e.2.core == r.core && e.2.rid == r.rid && (match e.2.k with
    | .event ts _ => ts.contains c
    | _ => false))

/-- EVENT_ARRIVAL (16 R322): bits of an EVSIG reach one target of it, the events of one core in the order of their issue (16 R331); a
switched-out context has them in its mailbox, a fenced die never receives them. -/
def State.eventArrival (s : State) (c bits : Nat) : State :=
  match s.reqs.find? (fun e => e.2.eventFor c bits && !s.olderEvent c e.1 e.2) with
  | none => if s.reqs.any (fun e => e.2.eventFor c bits) then s.oweEach (.eventArrival c bits) else s
  | some (id, r) => match r.k with
    | .event ts m =>
      let rest := ts.erase c
      let s := if rest.isEmpty then s.dropReq id else s.upReq id (fun r => { r with k := .event rest m })
      if s.tagDead r.owner ∨ (s.die (coreDie c)).st ≠ .live then s
      else match s.ctxAt c r.rid with
        | .running => s.upCore c (fun k => k.takeEvents m)
        | .saved n => s.upMail n (fun b => { b with ev := b.ev ||| m })
        | .gone => s
    | _ => s

/-- EVENT_ARRIVAL. -/
def execEventArrival (c bits : Nat) (s : State) : Host.Outcome State Fault Refusal := .next (s.eventArrival c bits)

/-- JCB_COMPLETION (16 R316): a JDONE, or a post that has waited, reaches its JCB. -/
def execJcbCompletion (id : Nat) (s : State) : Host.Outcome State Fault Refusal :=
  .next (s.onObject id 64 (.jcbCompletion id) (fun r s => match r.k with
    | .jpost p f => s.jcbPost (some r.pa) r.lidx r.tag p f
    | _ => s.jcbEvent r.pa (s.homeDie r.core) r.owner (.completion 0)))

/-- JCB_RAISE (16 R316, R318): a JRAISE reaches its JCB. -/
def execJcbRaise (id : Nat) (s : State) : Host.Outcome State Fault Refusal :=
  .next (s.onObject id 64 (.jcbRaise id) (fun r s => match r.k with
    | .jraise n late => s.jcbEvent r.pa (s.homeDie r.core) r.owner (.raise n late)
    | _ => s))

/-- JCB_FLAG (16 R316): a JFLAG reaches its JCB. -/
def execJcbFlag (id : Nat) (s : State) : Host.Outcome State Fault Refusal :=
  .next (s.onObject id 64 (.jcbFlag id) (fun r s => match r.k with
    | .jflag f => s.jcbEvent r.pa (s.homeDie r.core) r.owner (.flag f)
    | _ => s))

end Sys2Proof.Machine
end

