-- ==== Sys2Proof/Machine/Image.lean ====
section
/-! DEFINITION. Image.lean: kernel images, launch records and window tables as bytes, and the checks on them (02 R25 to R35, R38, R460,
03 R41, R42). A check answers the fault codes and detail words it finds. -/

namespace Sys2Proof.Machine

/-- The n-byte number at an offset of bytes. -/
def bnat (bs : List Byte) (o n : Nat) : Nat := leNat ((bs.drop o).take n)

/-- A launch record (02 R30). A JCB or table address that is not aligned stands as it is, and a level count of 7 reads a seventh level at
0x90 (log 99). -/
def parseRec (bs : List Byte) : LRec where
  image := BitVec.ofNat 64 (bnat bs 0 8)
  ctrl := BitVec.ofNat 32 (bnat bs 0x08 4)
  rect := BitVec.ofNat 32 (bnat bs 0x0C 4)
  tag := BitVec.ofNat 16 (bnat bs 0x10 2 % 4096)
  counts := BitVec.ofNat 16 (bnat bs 0x12 2)
  token := BitVec.ofNat 32 (bnat bs 0x14 4)
  seed0 := BitVec.ofNat 32 (bnat bs 0x18 4)
  seed1 := BitVec.ofNat 32 (bnat bs 0x1C 4)
  donejcb := BitVec.ofNat 64 (bnat bs 0x20 8)
  waitjcb := (upFrom 0 (Nat.min 4 (fld (bnat bs 0x12 2) 4 3))).map (fun i => BitVec.ofNat 64 (bnat bs (0x28 + 8 * i) 8))
  twtab := BitVec.ofNat 64 (bnat bs 0x48 8)
  args := BitVec.ofNat 64 (bnat bs 0x50 8)
  arglen := BitVec.ofNat 32 (bnat bs 0x58 4)
  levels := (upFrom 0 (bnat bs 0x12 2 % 8)).map (fun i => (bnat bs (0x60 + 8 * i) 4, bnat bs (0x64 + 8 * i) 1 % 8))
  sliceinit := BitVec.ofNat 64 (bnat bs 0x90 8)

/-- Tagged windows that a record names (02 R30). -/
def LRec.nwin (r : LRec) : Nat := fld r.counts.toNat 7 5
/-- Wait JCBs that a record names. -/
def LRec.nwait (r : LRec) : Nat := fld r.counts.toNat 4 3
/-- Distribution is DYN. -/
def LRec.dyn (r : LRec) : Bool := bit r.ctrl.toNat 28
/-- Pre-emptible. -/
def LRec.preemptible (r : LRec) : Bool := bit r.ctrl.toNat 29
/-- The fixed origin, if the record gives one. -/
def LRec.fixed (r : LRec) : Option (Nat × Nat) :=
  if bit r.ctrl.toNat 27 then some (fld r.rect.toNat 16 5, fld r.rect.toNat 24 6) else none

/-- A header field (02 R26). -/
def attrNmv (h : List Byte) : Bool := bit (bnat h 7 1) 2
/-- Protection mode is paired. -/
def attrPaired (h : List Byte) : Bool := bit (bnat h 7 1) 0
/-- PATCOUNT. -/
def hdrPats (h : List Byte) : Nat := bnat h 0x0C 2
/-- CODELEN. -/
def hdrCode (h : List Byte) : Nat := bnat h 0x18 4
/-- IMGLEN. -/
def hdrLen (h : List Byte) : Nat := bnat h 0x08 4
/-- NESTLEV. -/
def hdrNest (h : List Byte) : Nat := bnat h 0x0F 1

/-- MAGIC and VERSION are right (02 R38). -/
def magicOk (h : List Byte) : Bool := bnat h 0 4 == 0x01494B45 && bnat h 4 2 == 1

/-- The sections whose count is not zero: header offset of the offset field, offset, size (02 R26, R27). -/
def sections (h : List Byte) : List (Nat × Nat × Nat) :=
  ([(0x10, 48 * hdrPats h), (0x14, 2 * hdrCode h), (0x1C, ceilDiv (hdrCode h) 8), (0x20, 12 * bnat h 0x24 2),
    (0x28, 16 * bnat h 0x26 2), (0x2C, 8 * hdrNest h)].filter (fun e => e.2 != 0)).map (fun e => (e.1, bnat h e.1 4, e.2))

/-- Header offsets of the fields that break R25 to R27 (02 R38 BADLAYOUT, R460), for an image whose bytes are `b`. -/
def layoutBad (h b : List Byte) : List Nat :=
  let n := hdrLen h
  let out (f v lo hi : Nat) : List Nat := if lo ≤ v ∧ v ≤ hi then [] else [f]
  let secs := sections h
  out 0x06 (bnat h 6 1) 1 6 ++ (if n % 64 = 0 ∧ 256 ≤ n ∧ n ≤ 4194304 then [] else [0x08]) ++ out 0x0C (hdrPats h) 1 4096
  ++ out 0x0E (bnat h 0x0E 1) 0 128 ++ out 0x0F (hdrNest h) 0 6 ++ out 0x18 (hdrCode h) 1 1048576 ++ out 0x24 (bnat h 0x24 2) 0 16
  ++ out 0x26 (bnat h 0x26 2) 0 32
  ++ (secs.filter (fun e => e.2.1 % 64 != 0 || decide (e.2.1 < 256) || decide (n < e.2.1 + e.2.2) ||
        secs.any (fun g => g.1 != e.1 && decide (e.2.1 < g.2.1 + g.2.2) && decide (g.2.1 < e.2.1 + e.2.2)))).map Prod.fst
  ++ (if hdrCode h % 8 ≠ 0 ∧ bnat b (bnat h 0x1C 4 + hdrCode h / 8) 1 / 2 ^ (hdrCode h % 8) ≠ 0 then [0x1C] else [])
  ++ (if (upFrom 0 (bnat h 0x26 2)).any (fun i => decide (2 < bnat b (bnat h 0x28 4 + 16 * i + 2) 1)) then [0x28] else [])

/-- The least of a list. -/
def least : List Nat → Option Nat
  | [] => none
  | x :: xs => match least xs with
    | none => some x
    | some y => some (Nat.min x y)

/-- n numbers of w bytes from bytes. -/
def bnats (w : Nat) : Nat → List Byte → List Nat
  | 0, _ => []
  | n + 1, bs => leNat (bs.take w) :: bnats w n (bs.drop w)

/-- Pattern entries (02 R27): byte 0 holds bits [7:0]. -/
def imgPats (h b : List Byte) : List BundleBits :=
  (bnats 48 (hdrPats h) (b.drop (bnat h 0x10 4))).map (fun n => BitVec.ofNat 384 n)
/-- The code stream (02 R27). -/
def imgCode (h b : List Byte) : List Half := (bnats 2 (hdrCode h) (b.drop (bnat h 0x14 4))).map (fun n => BitVec.ofNat 16 n)
/-- Restart entries: FROM, TO, LABEL (02 R27). -/
def imgRestarts (h b : List Byte) : List (Nat × Nat × Nat) :=
  (upFrom 0 (bnat h 0x24 2)).map (fun i =>
    let o := bnat h 0x20 4 + 12 * i
    (bnat b o 4, bnat b (o + 4) 4, bnat b (o + 8) 4))

/-- The walk of R28 from halfword h, with k halfwords of a literal still to pass: the starts, and an escape whose literal runs past
the end. -/
def walk : Nat → Nat → List Half → List Nat × Option Nat
  | _, _, [] => ([], none)
  | k + 1, h, _ :: t => walk k (h + 1) t
  | 0, h, x :: t =>
    let r := walk (if x = 0xFFFF then 24 else 0) (h + 1) t
    (h :: r.1, if x = 0xFFFF ∧ t.length < 24 then some h else r.2)

/-- END of a LOOP (08 R158). -/
def loopEndOf : Instr → Option Nat
  | .loopImm e _ | .loopReg e _ => some e.toNat
  | _ => none

/-- The code of an image (02 R28, 06 R103), to be held at a stack. -/
def mkCode (h b : List Byte) (stack : Nat) : Code :=
  let hw := imgCode h b
  let seed := bnat h 0x38 8
  { pats := imgPats h b, hw := hw, starts := (walk 0 0 hw).1, restarts := imgRestarts h b, entry := bnat h 0x30 4
    defprof := bnat h 6 1, attr := BitVec.ofNat 8 (bnat h 7 1), nestlev := hdrNest h, quota := bnat h 0x0E 1
    seed0 := BitVec.ofNat 32 seed, seed1 := BitVec.ofNat 32 (seed / 2 ^ 32), stack := stack }

/-- The halfwords that R28 finds fault with (02 R460). -/
def codeBad (x : Code) (bits : List Byte) : List Nat :=
  let n := x.hw.length
  let past := (walk 0 0 x.hw).2
  let bitmap := ((upFrom 0 n).find? (fun i => bit (bnat bits (i / 8) 1) (i % 8) != x.starts.contains i)).toList
  let loops := x.starts.filter (fun i => match (x.bundleAt i).bind (fun b => if present b 0 then (decSlot b 0).bind loopEndOf else none) with
    | some e => !x.starts.contains (i + e)
    | none => false)
  let marks := (x.entry :: x.restarts.map (fun r => r.2.2)).filter (fun v => !x.starts.contains v)
  let ranges := (x.restarts.filter (fun r => decide (r.2.1 ≤ r.1) || decide (n < r.2.1))).map Prod.fst
  let meets := x.restarts.zipIdx.flatMap (fun a => (x.restarts.zipIdx.filter (fun b =>
    decide (a.2 < b.2) && decide (a.1.1 < b.1.2.1) && decide (b.1.1 < a.1.2.1))).map (fun b => Nat.max a.1.1 b.1.1))
  past.toList ++ bitmap ++ loops ++ marks ++ ranges ++ meets

/-- The first pattern entry that validation rejects (06 R125). -/
def patBad (ps : List BundleBits) (nmv : Bool) : Option Nat := ps.findIdx? (fun b => (checkBundle b nmv).isSome)

/-- Fault codes with their detail words. -/
abbrev Faults := List (Nat × Nat)

/-- One fault where a value is found. -/
def fault? (code : Nat) : Option Nat → Faults
  | some d => [(code, d)]
  | none => []

/-- The fault reported: the one of lowest code (02 R38). -/
def lowest : Faults → Option (Nat × Nat)
  | [] => none
  | f :: fs => match lowest fs with
    | none => some f
    | some g => if g.1 < f.1 then some g else some f

/-- CHECK, BADLAYOUT, BADPATTERN and BADCODE of an image (02 R38), `h` being its header and `b` its whole length. An image whose IMGLEN is
out of range has no bytes to check beyond its header. -/
def imageFaults (h b : List Byte) : Faults :=
  if 4194304 < hdrLen h then fault? 2 (least (layoutBad h []))
  else
    let zeroed := splice (splice b 0 (h.take 256)) 0x40 (toBytes 4 0)
    if (crc32 (zeroed.take (hdrLen h))).toNat ≠ bnat h 0x40 4 then [(1, 0)]
    else match least (layoutBad h b) with
      | some d => [(2, d)]
      | none => match patBad (imgPats h b) (attrNmv h) with
        | some i => [(3, i)]
        | none => fault? 4 (least (codeBad (mkCode h b 0) (b.drop (bnat h 0x1C 4))))

/-- R25's alignment of the image itself: a misaligned one makes the header's first field bad (log 99). -/
def imageAt (image : Word) : Faults := if image.toNat % 64 = 0 then [] else [(2, 0)]

/-- R29's two checks of each tensor entry, and R35's of the length (02 R38 BADARGS): the length is checked first (log 99). An ARGOFF that is
no multiple of 8 and an ALIGN above 21 are used as they stand, R29 naming no check of them (log 99). -/
def argFaults (h b args : List Byte) (arglen : Nat) : Faults :=
  if 4096 < arglen ∨ arglen % 8 ≠ 0 ∨ arglen < bnat h 0x34 4 then [(7, 0xFFFF)]
  else fault? 7 ((upFrom 0 (Nat.min 32 (bnat h 0x26 2))).find? (fun i =>
    let o := bnat h 0x28 4 + 16 * i
    let a := bnat b o 2
    decide (arglen < a + 8) || bnat args a 8 % 2 ^ bnat b (o + 4) 1 != 0))

/-- R31's checks that the record alone answers, in R460's order (02 R38 BADNEST): the walk positions and the product of the trip counts. -/
def walkFaults (levels : List (Nat × Nat)) : Faults :=
  let n := levels.length
  match (levels.zipIdx).find? (fun e => decide (n ≤ e.1.2) || (levels.take e.2).any (fun g => g.2 == e.1.2)) with
  | some (_, i) => [(5, i)]
  | none => if (levels.map Prod.fst).foldl (· * ·) 1 < 2 ^ 48 then []
      else fault? 5 (((upFrom 1 n).find? (fun k => decide (2 ^ 48 ≤ ((levels.take k).map Prod.fst).foldl (· * ·) 1))).map
      (fun k => 0x200 + k - 1))

/-- R31's checks, in R460's order (02 R38 BADNEST): bounds by level, least and greatest. -/
def nestFaults (levels : List (Nat × Nat)) (nestlev : Nat) (bounds : List (Nat × Nat)) : Faults :=
  let n := levels.length
  if n ≠ nestlev then [(5, 0x100 + nestlev)]
  else match (levels.zipIdx).find? (fun e =>
      let b := bounds.getD e.2 (0, 0)
      decide (e.1.1 < b.1) || (b.2 != 0 && decide (b.2 < e.1.1))) with
    | some (_, i) => [(5, i)]
    | none => walkFaults levels

/-- T of a record (02 R31). -/
def LRec.points (r : LRec) : Nat := (r.levels.map Prod.fst).foldl (· * ·) 1

/-- R33's checks (02 R38 BADRECT). -/
def rectFaults (r : LRec) (paired : Bool) : Faults :=
  let a := fld r.rect.toNat 0 4
  let b := fld r.rect.toNat 4 4
  let off := match r.fixed with
    | some (x, y) => x % 2 ^ a != 0 || y % 2 ^ b != 0
    | none => false
  if 5 < a ∨ 6 < b ∨ off = true ∨ (paired = true ∧ a = 0) then [(6, 0)] else []

/-- A window table (03 R41). -/
def parseWindows (bs : List Byte) (n : Nat) : List Window :=
  (upFrom 0 n).map (fun i => ⟨bnat bs (16 * i) 8, bnat bs (16 * i + 8) 4, bit (bnat bs (16 * i + 12) 1) 0⟩)

/-- Whether a window fails R42 by itself. -/
def Window.bad (w : Window) : Bool :=
  w.base % 65536 != 0 || w.size == 0 || decide (67108864 < w.size) || decide (2 ^ 64 < w.base + 65536 * w.size)
    || !canonical w.base || w.base / 2 ^ 56 != (w.base + 65536 * w.size - 1) / 2 ^ 56

/-- Two windows share an address; one of no size holds none. -/
def Window.meets (a b : Window) : Bool :=
  a.size != 0 && b.size != 0 && decide (a.base < b.base + 65536 * b.size) && decide (b.base < a.base + 65536 * a.size)

/-- BADWINDOW (03 R42): the number of the first failing window. -/
def windowFaults (ws : List Window) : Faults :=
  fault? 0x0D (((ws.zipIdx).find? (fun e => e.1.bad || (ws.zipIdx).any (fun g => g.2 != e.2 && e.1.meets g.1))).map Prod.snd)

end Sys2Proof.Machine
end

