-- ==== Sys2Proof/Machine/Launch.lean ====
section
/-! DEFINITION. Launch.lean: launch ports, acceptance, the limit on waiting launches, cancellation and aging (05 R81 to R87, R101, 02 R37,
R38). The LC reads through its die's copy engine; a read that waits owes its step again (log 1). -/

namespace Sys2Proof.Machine

/-- The engine through which the LC of a die reads (02 R37): the copy engine of its cluster 0. -/
def lcEngine (d : Nat) : Engine := .copy (8 * d)

/-- The lowest core of a die: its page requests count for the die (11 R249). -/
def dieCore (d : Nat) : Nat := coreAt (4 * (d % 8)) (8 * (d / 8))

/-- Answer of an LC's read or translation (02 R37). -/
inductive LcRd (α : Type) where
  | ok (a : α)
  | wait (s : State)
  | bad (va : Nat)

/-- What the LC does about a translation fault (02 R37): a page request, once for a page, or READFAULT. -/
def State.lcFault {α : Type} (s : State) (rid : Nat) (l : Launch) (d va : Nat) (w : Bool) (r : PReason) (again : Instr) :
    LcRd α :=
  if !r.resolvable || l.failed.contains (va / 4096) then .bad va
  else if pageLimit ≤ s.pagesOut (dieCore d) then .wait (s.owe again)
  else if s.reqs.any (fun e => e.2.k == .page w (lcEngine d) (.lc rid) && e.2.va.toNat / 4096 == va / 4096) then .wait s
  else .wait (s.addReq (s.pageReq (dieCore d) none 0 (lcEngine d) w (.lc rid) (BitVec.ofNat 64 va)))

/-- The LC reads n bytes under tag 0 as one snapshot (02 R37); poison fails the read (DESIGN CHOICE, log 26). `again` is the step that
reads. -/
def State.lcRead (s : State) (rid : Nat) (l : Launch) (d : Nat) (va : Word) (n : Nat) (again : Instr) : LcRd (List Byte) :=
  match s.readVa (lcEngine d) (s.nextId + rid) 0 false va.toNat n with
  | .miss a => .wait ((s.owe (.atsTranslationReply (lcEngine d) a)).owe again)
  | .fault a r => s.lcFault rid l d a false r again
  | .data ps =>
    if (pieces va.toNat n).any (fun p => match s.xlate (lcEngine d) (p.1 % 2 ^ 64) 0 .read with
        | .ok pa => s.paHeld pa p.2
        | _ => false) then .wait (s.owe again)
    else if anyPoison ps then .bad va.toNat
    else .ok (bytesOf ps)

/-- What the LC reads is recalled from the dies that hold it writable (11 R244). -/
def State.lcRecall (s : State) (d : Nat) (va : Word) (n : Nat) : State := s.recallVa (lcEngine d) 0 va.toNat n false (some d)

/-- The LC translates an address that it holds (02 R37). -/
def State.lcXlate (s : State) (rid : Nat) (l : Launch) (d : Nat) (va : Word) (a : Acc) (again : Instr) : LcRd Nat :=
  match s.xlate (lcEngine d) va.toNat 0 a with
  | .ok pa => .ok pa
  | .miss => .wait ((s.owe (.atsTranslationReply (lcEngine d) va.toNat)).owe again)
  | .fault r => s.lcFault rid l d va.toNat (a == .write) r again

/-- Translate several. -/
def State.lcXlates (s : State) (rid : Nat) (l : Launch) (d : Nat) (again : Instr) : List Word → LcRd (List Nat)
  | [] => .ok []
  | a :: as => match s.lcXlate rid l d a .read again with
    | .ok p => match s.lcXlates rid l d again as with
      | .ok ps => .ok (p :: ps)
      | .wait s => .wait s
      | .bad v => .bad v
    | .wait s => .wait s
    | .bad v => .bad v

/-- A read that must not wait: its answer, or its fault as READFAULT. -/
def rdFault {α : Type} : LcRd α → Faults
  | .bad va => [(0x0C, va % 2 ^ 32)]
  | _ => []

/-- The value of a read, if it has one. -/
def rdVal {α : Type} : LcRd α → Option α
  | .ok a => some a
  | _ => none

/-- The state of a read that waits. -/
def rdWait {α : Type} : LcRd α → Option State
  | .wait s => some s
  | _ => none

/-- A JCB to which a post goes lies in ordinary memory; elsewhere there is no object (16 R311). -/
def jcbPlace (pa : Nat) : Option Nat := if region pa = .ordinary then some pa else none

/-- LNCH is answered (16 R325, 18 R365 kind 6): the core goes on, and the mailbox of a switched-out context keeps the code. -/
def State.answerLnch (s : State) (l : Launch) (code : Nat) : State :=
  match l.issuer, look s.reqs l.req with
  | some c, some r =>
    let s := s.dropReq l.req
    match s.ctxAt c r.rid with
    | .running => match (s.core c).op with
      | some (.answer id _) => if id = l.req then s.endStitch c else s
      | _ => s
    | .saved n => s.logSlot n 6 (BitVec.ofNat 64 code)
    | .gone => s
  | _, _ => s

/-- A launch leaves the package. -/
def State.dropLaunch (s : State) (rid : Nat) : State :=
  ({ s with launches := del s.launches rid }.owe .placementPass).owe .submissionRelease

/-- The fate of a launch that fails a check (02 R38): DONEJCB is marked failed, a launch-fault record goes out on Lane N from
the LC that checks, and the launch is gone. -/
def State.launchFault (s : State) (rid : Nat) (l : Launch) (lc code detail : Nat) : State :=
  let s := s.jcbPost l.jdone (s.completingDie lc) 0 .fail 0
  let s := s.emit false (.lc lc) { code := code, tag := l.recd.tag.toNat, detail := detail, addr := l.addr.toNat }
  (s.answerLnch l code).dropLaunch rid

/-- LP_SUBMIT (05 R81), written by the host, where it reaches the package. -/
def execLpSubmit (die : Nat) (v : Word) (s : State) : Host.Outcome State Fault Refusal := .next (s.lpWrite die v s.hostSrc 0)

/-- The acceptance checks that need no read beyond the record (02 R38, 05 R82): BADTAG, BADREC, BADISSUER. -/
def State.recordFaults (s : State) (l : Launch) (r : LRec) : Faults :=
  let tag := r.tag.toNat
  let issuerOk : Bool := match l.issuer, look s.reqs l.req with
    | some _, some q => tag == q.owner || (s.descends 16 tag q.owner && (s.tag tag).st == .live)
    | _, _ => l.porttag == 4096 || l.porttag == tag
  (if tag = 4095 ∨ (s.tag tag).st ≠ .live then [(8, tag)] else [])
  ++ (if r.ctrl.toNat % 256 ≠ 1 ∨ 4 < r.nwait ∨ 16 < r.nwin then [(0x0A, 0)] else [])
  ++ (if issuerOk then [] else [(0x0E, tag)])

/-- The acceptance of a launch whose record is read (02 R37, R38): header, bounds, window table and JCB addresses, then the checks. Of
several addresses that cannot be read, the first in this order gives the detail of READFAULT (log 99). A wait JCB outside ordinary memory is
read where its address leads (log 112). With no header to read, the checks that the record alone answers stand. `l` has the record. -/
def State.acceptWith (s : State) (rid : Nat) (l : Launch) : State :=
  let again : Instr := .launchAcceptance rid
  let r := l.recd
  let d := l.die
  let hdr := s.lcRead rid l d r.image 256 again
  let h := (rdVal hdr).getD []
  let nest := hdrNest h
  let bounds := if h = [] ∨ nest ≠ r.levels.length ∨ nest = 0 then .ok []
    else s.lcRead rid l d (r.image + BitVec.ofNat 64 (bnat h 0x2C 4)) (8 * nest) again
  let wins := if r.nwin = 0 ∨ 16 < r.nwin then .ok [] else s.lcRead rid l d r.twtab (16 * r.nwin) again
  let done := if r.donejcb = 0 then .ok 0 else s.lcXlate rid l d r.donejcb .write again
  let waits := s.lcXlates rid l d again r.waitjcb
  match (rdWait hdr).or ((rdWait bounds).or ((rdWait wins).or ((rdWait done).or (rdWait waits)))) with
  | some s => s
  | none =>
    let bs := (rdVal bounds).getD []
    let s := (s.lcRecall d r.image 256).lcRecall d r.twtab (16 * (Nat.min 16 r.nwin))
    let bl := (upFrom 0 (bs.length / 8)).map (fun i => (bnat bs (8 * i) 4, bnat bs (8 * i + 4) 4))
    let ws := parseWindows ((rdVal wins).getD []) (if 16 < r.nwin then 0 else r.nwin)
    let l := { l with header := h, bounds := bl, windows := ws
                      jdone := if r.donejcb = 0 then none else (rdVal done).bind jcbPlace
                      jwait := (rdVal waits).getD [], points := r.points }
    let faults := s.recordFaults l r ++ rdFault hdr ++ rdFault bounds ++ rdFault wins ++ rdFault done ++ rdFault waits
      ++ (if h = [] then rectFaults r false ++ walkFaults r.levels
          else (if magicOk h then [] else [(1, 0)]) ++ rectFaults r (attrPaired h)
            ++ nestFaults r.levels nest bl)
      ++ (match rdVal wins with | some _ => windowFaults ws | none => [])
    match lowest faults with
    | some (code, det) => s.launchFault rid l d code det
    | none =>
      if 4096 ≤ s.pendingLaunches then s.setLaunch rid { l with state := .held }
      else
        let s := s.upDie d (fun x => { x with seq := x.seq + 1 })
        let l := { l with state := .waiting, acc := s.hxd.order }
        let s := ((s.setLaunch rid l).nextOrder).answerLnch l 0
        s.testWait rid l

/-- Acceptance (05 R82, 02 R37): the record is read first. An LNCH whose tag is no longer LIVE is dropped (03 R53). A failed package accepts
nothing (20 R394). A launch that waits already looks at its wait list again (05 R85). -/
def State.accept (s : State) (rid : Nat) : State :=
  let again : Instr := .launchAcceptance rid
  match look s.launches rid with
  | none => s
  | some l =>
    if l.state = .waiting ∧ !s.hxd.pkgFailed then s.testWait rid l
    else if l.state ≠ .accepting ∨ s.hxd.pkgFailed then s
    else if (look s.reqs l.req).any (fun r => l.issuer.isSome && s.tagDead r.owner) then
      let owner := ((look s.reqs l.req).map (fun r => r.owner)).getD 0
      ((s.dropReq l.req).dropLaunch rid).tagDropDie l.die 1 owner l.addr.toNat
    else match s.lcRead rid l l.die l.addr 256 again with
      | .wait s => s
      | .bad va => s.launchFault rid l l.die 0x0C (va % 2 ^ 32)
      | .ok bs => (s.lcRecall l.die l.addr 256).acceptWith rid { l with recd := parseRec bs }

/-- LAUNCH_ACCEPTANCE. -/
def execLaunchAcceptance (id : Nat) (s : State) : Host.Outcome State Fault Refusal := .next (s.accept id)

/-- The entry of least order of a list of launches. -/
def leastOrder : List (Nat × Launch) → Option (Nat × Launch)
  | [] => none
  | x :: xs => match leastOrder xs with
    | none => some x
    | some y => if y.2.order < x.2.order then some y else some x

/-- Held submissions are taken in the order in which they reached the limit (05 R83). -/
def State.releaseHeld (s : State) : State :=
  let busy := s.pendingLaunches + (s.launches.filter (fun e => e.2.state == .accepting)).length
  match leastOrder (s.launches.filter (fun e => e.2.state == .held)) with
  | none => s
  | some (rid, l) =>
    if 4096 ≤ busy then s
    else ((s.setLaunch rid { l with state := .accepting }).owe (.launchAcceptance rid)).owe .submissionRelease

/-- SUBMISSION_RELEASE. -/
def execSubmissionRelease (s : State) : Host.Outcome State Fault Refusal := .next s.releaseHeld

/-- LP_CANCEL (05 R81, R101). -/
def execLpCancel (die : Nat) (v : Word) (s : State) : Host.Outcome State Fault Refusal :=
  .next (if 64 ≤ die ∨ !s.hostUp then s
    else if (s.die die).st ≠ .live then s.dieFencedAnswer die s.hostSrc
    else s.cancelToken (v.toNat % 2 ^ 32))

/-- The physical address a die's LC would find for an address of tag 0, whatever its cache holds. -/
def State.peek (s : State) (va : Word) : Option Nat := (s.iommuLeaf va.toNat).map (fun x => x.pa + (va.toNat - x.va))

/-- A held submission's token or tag, and its DONEJCB (05 R101, 03 R55): read where they stand, as any read finds them (04 R76). -/
def State.heldWord (s : State) (l : Launch) (o n : Nat) : Nat :=
  match s.peek l.addr with
  | some pa => leNat (bytesOf (s.readPa (s.freeIx 7) 0 (pa + o) n false))
  | none => 0

/-- The DONEJCB of a held submission. -/
def State.heldJcb (s : State) (l : Launch) : Option Nat :=
  let a := s.heldWord l 0x20 8
  if a = 0 then none else (s.peek (BitVec.ofNat 64 a)).bind jcbPlace

/-- Drop the saved contexts of a launch, and free its slots (18 R360). -/
def State.dropSaved (s : State) (rid : Nat) : State :=
  match look s.launches rid with
  | none => s
  | some l =>
    let used := (l.slots ++ l.evict.getD []).map Prod.snd
    let s := s.upHxd (fun h => { h with slotsUsed := h.slotsUsed.filter (fun n => !used.contains n) })
    { (s.setLaunch rid { l with slots := [], evict := none }) with saved := s.saved.filter (fun e => e.2.k.rid != some rid) }

/-- Free the code copy of a launch (12 R250). -/
def State.freeCode (s : State) (key : Nat) : State :=
  if key = 0 then s
  else { s with codes := del s.codes key, stks := s.stks.map (fun e => (e.1, { e.2 with codeUse := del e.2.codeUse key })) }

/-- Flags of a launch's contexts, those that stopped and those saved. -/
def State.savedFlags (s : State) (rid : Nat) : BitVec 6 :=
  (s.saved.filter (fun e => e.2.k.rid == some rid)).foldl (fun f e => f ||| e.2.k.flags) 0

/-- A launch that has no context on a core ends cancelled or failed: nothing of it goes on. -/
def State.endQuietly (s : State) (rid : Nat) (l : Launch) (p : JPost) : State :=
  let f := l.flags ||| s.savedFlags rid
  let s := s.jcbPost l.jdone (s.completingDie l.die) 0 p f
  ((s.dropSaved rid).freeCode l.code).dropLaunch rid

/-- A launch with contexts starts to stop: no further point is handed out; the end comes with LAUNCH_COMPLETE (05 R101). -/
def State.startStop (s : State) (rid : Nat) (l : Launch) (failed : Bool) : State :=
  let f := s.savedFlags rid
  let s := s.setLaunch rid { l with state := .stopping failed, flags := l.flags ||| f }
  let s := { s with saved := s.saved.filter (fun e => e.2.k.rid != some rid) }
  (s.cancelCores l).owe (.launchComplete rid)

/-- One launch at a cancel point (05 R101). -/
def State.cancelLaunch (s : State) (rid token : Nat) : State :=
  match look s.launches rid with
  | none => s
  | some l => match l.state with
    | .held =>
      if s.heldWord l 0x14 4 = token then
        ((s.jcbPost (s.heldJcb l) (s.completingDie l.die) 0 .cancel 0).answerLnch l 0).dropLaunch rid
      else s
    | .accepting => s
    | .stopping _ => s
    | .waiting | .queued | .placing | .switchedOut =>
      if l.recd.token.toNat = token then s.endQuietly rid l .cancel else s
    | .placed | .preempting => if l.recd.token.toNat = token then s.startStop rid l false else s

/-- CANCEL_POINT (05 R101). -/
def execCancelPoint (token : Nat) (s : State) : Host.Outcome State Fault Refusal :=
  .next (if token = 0 then s else s.launches.foldl (fun s e => s.cancelLaunch e.1 token) s)

/-- CANCEL_TIMEOUT (05 R101): 65,536 TC cycles after the cancel point, the context stops at its next bundle boundary. -/
def execCancelTimeout (c : Nat) (s : State) : Host.Outcome State Fault Refusal :=
  .next (match (s.core c).cancelTc with
    | some t => if t + 65536 ≤ s.tc ∧ (s.core c).phase ≠ .ended then s.upCore c (fun k => { k with stopNext := true }) else s
    | none => s)

/-- AGING_PROMOTE (05 R87): to the tail of the next queue, with a new interval. A launch that comes to the head of queue 3 so is looked at
(05 R102). -/
def execAgingPromote (rid : Nat) (s : State) : Host.Outcome State Fault Refusal :=
  .next (match look s.launches rid with
    | none => s
    | some l => match l.state with
      | .queued | .switchedOut =>
        if s.hxd.paAging ≠ 0 ∧ l.prio < 3 ∧ l.qtc + s.hxd.paAging.toNat ≤ s.tc then
          ((s.setLaunch rid { l with prio := l.prio + 1, qtc := s.tc, order := s.hxd.order }).nextOrder).owe .placementPass
        else s
      | _ => s)

end Sys2Proof.Machine
end

