-- ==== Sys2Proof/Machine/Place.lean ====
section
/-! DEFINITION. Place.lean: the placement pass and pre-emption (05 R88 to R91, 18 R360), the placement checks and the start of a launch
(02 R34 to R38), distribution (05 R93 to R99) and the end of a launch (05 R98, R101, 18 R350). -/

namespace Sys2Proof.Machine

/-- The cores of a rectangle meet those of a launch on the mesh. -/
def Launch.meets (l : Launch) (x y w h : Nat) : Bool :=
  decide (l.x0 < x + w) && decide (x < l.x0 + l.recd.width) && decide (l.y0 < y + h) && decide (y < l.y0 + l.recd.height)

/-- The dies of a rectangle, lowest first (01 R12). -/
def rectDies (x y w h : Nat) : List Nat :=
  (upFrom (y / 8) ((y + h - 1) / 8 - y / 8 + 1)).flatMap (fun j =>
    (upFrom (x / 4) ((x + w - 1) / 4 - x / 4 + 1)).map (fun i => 8 * j + i))

/-- The dies of a launch's rectangle. -/
def Launch.dies (l : Launch) : List Nat := rectDies l.x0 l.y0 l.recd.width l.recd.height

/-- The master: the lowest live die of the rectangle (05 R93). -/
def State.masterOf (s : State) (ds : List Nat) : Option Nat := ds.find? (fun d => (s.die d).st == .live)

/-- The positions at which a launch may be placed, row-major (05 R88, R91). -/
def Launch.positions (l : Launch) : List (Nat × Nat) :=
  let w := l.recd.width
  let h := l.recd.height
  if l.resume then [(l.x0, l.y0)]
  else match l.recd.fixed with
    | some p => [p]
    | none => (upFrom 0 (64 / h)).flatMap (fun j => (upFrom 0 (32 / w)).map (fun i => (i * w, j * h)))

/-- A position is free, once the launches named are gone (05 R88). -/
def State.freeAt (s : State) (l : Launch) (gone : List Nat) (p : Nat × Nat) : Bool :=
  let w := l.recd.width
  let h := l.recd.height
  !s.launches.any (fun e => e.2.onMesh && !gone.contains e.1 && e.2.meets p.1 p.2 w h) &&
  (rectDies p.1 p.2 w h).all (fun d => (s.die d).st == .live)

/-- The first free position of a launch (05 R88). -/
def State.freePos (s : State) (l : Launch) (gone : List Nat) : Option (Nat × Nat) := l.positions.find? (s.freeAt l gone)

/-- Bytes of a code copy with its bitmap (12 R250, 06 R103). -/
def copyBytes (h : List Byte) : Nat :=
  let n := Nat.min (hdrCode h) 1048576
  2 * n + ceilDiv n 8

/-- Room for code copies in a stack's reserve: 160 MiB less 4.25 MiB (12 R250). -/
def codeRoom : Nat := 163315712

/-- Distance of two cells (12 R250): cell k lies at column k mod 4 and row k div 4 (01 R14). -/
def cellDist (a b : Nat) : Nat := (a % 4 - b % 4) + (b % 4 - a % 4) + ((a / 4 - b / 4) + (b / 4 - a / 4))

/-- The stack that holds a code copy of n bytes for the LC of a die (12 R250). -/
def State.codeStack (s : State) (d n : Nat) : Option Nat :=
  let ok (k : Nat) : Bool := decide ((vals (s.stack k).codeUse).sum + n ≤ codeRoom)
  (upFrom 0 13).findSome? (fun r => (upFrom 0 32).find? (fun k => cellDist (dieCell d) k == r && ok k))

/-- Place a launch at a position (05 R88, R89): its rectangle is taken and its code copy has its room; the checks follow. -/
def State.placeAt (s : State) (rid : Nat) (l : Launch) (p : Nat × Nat) (stack : Nat) : State :=
  let key := s.nextCode
  let m := (s.masterOf (rectDies p.1 p.2 l.recd.width l.recd.height)).getD 0
  let l := { l with state := .placing, onMesh := true, x0 := p.1, y0 := p.2, placedPrio := l.prio, order := s.hxd.order, master := m
                    code := key, failed := [] }
  let s := { (s.setLaunch rid l).nextOrder with nextCode := key + 1 }
  let s := s.upStack stack (fun k => { k with codeUse := put k.codeUse key (copyBytes l.header) })
  (s.owe (.launchStart rid)).owe .submissionRelease

/-- A switched-out launch is placed again at its origin (05 R91, 18 R366). -/
def State.placeAgain (s : State) (rid : Nat) (l : Launch) : State :=
  let l := { l with state := .placing, onMesh := true, placedPrio := l.prio, order := s.hxd.order
                    master := (s.masterOf l.dies).getD l.master }
  (((s.setLaunch rid l).nextOrder).owe (.contextRestore rid)).owe .submissionRelease

/-- Clusters wholly inside a rectangle (02 R34). -/
def Launch.wholeClusters (l : Launch) : List Nat := ((l.cores.map coreCluster).eraseDups).filter l.covers

/-- Paired protection of a launch's image (02 R26). -/
def Launch.paired (l : Launch) : Bool := attrPaired l.header

/-- Cores that lead the logical cores of a launch, in order of logical index (05 R93): of a pair, the one at even x (07 R151). -/
def Launch.leads (l : Launch) : List Nat := l.cores.filter (fun c => !l.paired || coreX c % 2 == 0)

/-- The mode SLICEINIT gives a slice (02 R30). -/
def LRec.sliceMode (r : LRec) (n : Nat) : Option SliceMode :=
  match fld r.sliceinit.toNat (2 * n) 2 with
  | 1 => some .cache
  | 2 => some .scratch
  | 3 => some .fifo
  | _ => none

/-- The mode by which slice n of cluster cl counts for a launch (18 R360): the one it is being switched to, or that the start of the launch
will give it. -/
def State.modeAhead (s : State) (l : Launch) (cl n : Nat) : SliceMode :=
  match (clusterCores cl).findSome? (fun c => match (s.core c).op with
    | some (.switch mask m _ _) => if bit mask.toNat n then some m else none
    | _ => none) with
  | some m => m
  | none =>
    let m := ((s.cluster cl).slice n).mode
    if l.state = .placing ∧ !l.resume then (l.recd.sliceMode n).getD m else m

/-- An SLMODE of a core that has issued and does not switch yet. -/
def Core.slmodeIssued (k : Core) : Option (BitVec 32 × SliceMode) :=
  match k.op, k.phase, k.stitchOp with
  | some (.act (.slmode mask m _)), _, _ | none, .drain (.stitch (some (.slmode mask m _))), _
  | none, .sleep _, some (.slmode mask m _) => some (mask, m)
  | _, _, _ => none

/-- A slice needs a save slot (18 R360): it counts as SCRATCH or FIFO, or an SLMODE that has issued is to make it so. -/
def State.slotNeeded (s : State) (l : Launch) (cl n : Nat) : Bool :=
  s.modeAhead l cl n != .cache || (clusterCores cl).any (fun c => match (s.core c).slmodeIssued with
    | some (mask, m) => bit mask.toNat n && m != .cache
    | none => false)

/-- Save slots that pre-empting a launch needs, under the keys of `Launch.slots` (18 R360): one for each logical core, a header and the
SCRATCH and FIFO slices for each cluster. A launch that is to be restored needs those it holds. -/
def State.slotsFor (s : State) (l : Launch) : List Nat :=
  if l.resume then l.slots.map Prod.fst
  else (upFrom 0 l.leads.length) ++ l.wholeClusters.flatMap (fun k =>
    (4096 + 64 * k) :: ((upFrom 0 32).filter (s.slotNeeded l k)).map (fun n => 4096 + 64 * k + 1 + n))

/-- Save slots that are free (18 R360). -/
def Hxd.slotsFree (h : Hxd) : List Nat := (upFrom 0 h.saveSlots).filter (fun n => !h.slotsUsed.contains n)

/-- Candidates for pre-emption, youngest first, as far as the pool has slots for each with those before it (05 R90, 18 R360): launches that
run, and those whose start is under way. -/
def State.candidates (s : State) (ok : Launch → Bool) : List Nat :=
  let all := s.launches.filter (fun e => (e.2.state == .placed || e.2.state == .placing) && e.2.evict.isNone && e.2.recd.preemptible && decide (e.2.placedPrio < 3) && ok e.2)
  let sorted := all.foldl (fun acc e =>
    (acc.filter (fun g => decide (e.2.order < g.2.order))) ++ [e] ++ acc.filter (fun g => decide (g.2.order ≤ e.2.order))) ([] : List (Nat × Launch))
  (sorted.foldl (fun (acc : List Nat × Nat) e =>
    let n := (s.slotsFor e.2).length
    if acc.2 + n ≤ s.hxd.slotsFree.length then (acc.1 ++ [e.1], acc.2 + n) else acc) ([], 0)).1

/-- A pre-empted launch's contexts are asked to switch out, to the slots reserved (18 R361). -/
def State.evictNow (s : State) (rid : Nat) : State :=
  match look s.launches rid with
  | none => s
  | some l => match l.evict with
    | none => s
    | some slots =>
      let s := s.setLaunch rid { l with state := .preempting, slots := slots, evict := none, clusters := l.wholeClusters, outTc := s.tc }
      l.leads.foldl (fun s c => s.upCore c (fun k => if k.rid = some rid ∧ k.out = .no then { k with out := .requested s.tc } else k)) s

/-- Pre-empt a launch (05 R91, 18 R360): its slots are reserved. One whose start is under way is switched out when it has started. -/
def State.preempt (s : State) (rid : Nat) : State :=
  match look s.launches rid with
  | none => s
  | some l =>
    let slots := (s.slotsFor l).zip s.hxd.slotsFree
    let s := (s.upHxd (fun h => { h with slotsUsed := h.slotsUsed ++ slots.map Prod.snd })).setLaunch rid { l with evict := some slots }
    if l.state = .placed then s.evictNow rid else s

/-- Pre-empt candidates one at a time until a position is free (05 R90). -/
def State.preemptFor (s : State) (l : Launch) (gone : List Nat) : List Nat → State
  | [] => s
  | c :: cs => if (s.freePos l gone).isSome then s else (s.preempt c).preemptFor l (c :: gone) cs

/-- Pre-emption for a launch of priority 3 with no free position (05 R90); rectangles of launches already switching out count as to be
freed. A launch that may resume only at its former origin counts as one of fixed origin (log 117). -/
def State.tryPreempt (s : State) (l : Launch) : State :=
  let going := (s.launches.filter (fun e => e.2.state == .preempting || e.2.evict.isSome)).map Prod.fst
  let only : Option (Nat × Nat) := match l.positions with | [p] => some p | _ => none
  let cands := s.candidates (fun c => match only with
    | some p => c.meets p.1 p.2 l.recd.width l.recd.height
    | none => true)
  if (s.freePos l going).isSome ∨ (s.freePos l (going ++ cands)).isNone then s else s.preemptFor l going cands

/-- Launches of queue q, head first (05 R86). -/
def State.queueOf (s : State) (q : Nat) : List (Nat × Launch) :=
  let all := s.launches.filter (fun e => e.2.prio == q && e.2.points != 0 && (e.2.state == .queued || e.2.state == .switchedOut))
  all.foldl (fun acc e =>
    (acc.filter (fun g => decide (g.2.order ≤ e.2.order))) ++ [e] ++ acc.filter (fun g => decide (e.2.order < g.2.order))) []

/-- A free position of a launch, with the stack for its code copy: a launch whose code copy finds no room has none (12 R250). -/
def State.spotFor (s : State) (l : Launch) : Option ((Nat × Nat) × Nat) :=
  match s.freePos l [] with
  | none => none
  | some p =>
    if l.resume then some (p, 0)
    else
      let m := (s.masterOf (rectDies p.1 p.2 l.recd.width l.recd.height)).getD 0
      (s.codeStack m (copyBytes l.header)).map (fun k => (p, k))

/-- One pass over launches in order of visit (05 R89): a priority-3 launch that stays unplaced ends it. None is pre-empted for a launch whose
code copy finds room on no stack (12 R250). -/
def State.visit (s : State) : List (Nat × Launch) → State
  | [] => s
  | (rid, l) :: rest => match s.spotFor l with
    | some (p, k) => (if l.resume then s.placeAgain rid l else s.placeAt rid l p k).visit rest
    | none =>
      if l.prio < 3 then s.visit rest
      else if (s.freePos l []).isSome ∨ (!l.resume ∧ (s.codeStack 0 (copyBytes l.header)).isNone) then s
      else s.tryPreempt l

/-- PLACEMENT_PASS (05 R89). A failed package places nothing (20 R394). -/
def execPlacementPass (s : State) : Host.Outcome State Fault Refusal :=
  .next (if s.hxd.pkgFailed then s else s.visit (s.queueOf 3 ++ s.queueOf 2 ++ s.queueOf 1 ++ s.queueOf 0))

/-- BADSLICE (02 R38): SLICEINIT for a rectangle that covers a cluster in part, or a FIFO slice to be switched with entries pending. -/
def State.sliceFaults (s : State) (l : Launch) : Faults :=
  let r := l.recd
  let partly : Bool := decide (r.width < 2) || decide (r.height < 2)
  if r.sliceinit ≠ 0 ∧ partly = true then fault? 9 ((upFrom 0 32).find? (fun n => fld r.sliceinit.toNat (2 * n) 2 != 0))
  else fault? 9 ((upFrom 0 32).find? (fun n => l.wholeClusters.any (fun k =>
    let x := (s.cluster k).slice n
    x.mode == .fifo && !x.fifo.isEmpty && (match r.sliceMode n with | some m => m != .fifo | none => false))))

/-- SLICEINIT is applied to every cluster wholly inside the rectangle, or to those of one die (02 R34, 05 R99). -/
def State.sliceInit (s : State) (l : Launch) (only : Nat → Bool) : State :=
  (l.wholeClusters.filter (fun k => only (clusterDie k))).foldl (fun s k =>
    [SliceMode.cache, .scratch, .fifo].foldl (fun s m =>
      s.switchSlices k ((upFrom 0 32).filter (fun n => l.recd.sliceMode n == some m && ((s.cluster k).slice n).mode != m)) m) s) s

/-- Every slice that SLICEINIT switches is quiet (11 R242 step 1): requests of launches that have left it may still read or write it. -/
def State.sliceInitQuiet (s : State) (l : Launch) : Bool :=
  l.wholeClusters.all (fun k => (upFrom 0 32).all (fun n => match l.recd.sliceMode n with
    | some m => ((s.cluster k).slice n).mode == m || s.sliceQuiet k n s.nextId (s.tc + 1)
    | none => true))

/-- A core at the start of a launch (02 R35, R36, 10 R208): the argument block in spill memory, everything else as R35 gives. -/
def startCore (l : Launch) (x : Code) (rid lidx tc : Nat) : Core :=
  let seeds := if bit l.recd.ctrl.toNat 26 then (x.seed0, x.seed1) else (l.recd.seed0, l.recd.seed1)
  let k := { Core.reset with
    rid := some rid, lidx := lidx, ctag := BitVec.ofNat 12 l.recd.tag.toNat, token := l.recd.token, code := l.code
    strict := bit x.attr.toNat 1, paired := bit x.attr.toNat 0, defprof := x.defprof, prof := x.defprof, quota := x.quota
    ldecl := l.recd.levels.length, seed0 := seeds.1, seed1 := seeds.2, spill := Memory.setBytes [] 0 l.args
    phase := .table, lastIssue := tc, pos := x.entry }
  k.stitch

/-- Prepare the cores of a launch that a predicate names, both cores of a pair (07 R151). -/
def State.startCores (s : State) (rid : Nat) (l : Launch) (x : Code) (only : Nat → Bool) : State :=
  (l.leads.zipIdx).foldl (fun s e => if only e.1 then ((s.setCore e.1 (startCore l x rid e.2 s.tc)).activate e.1).mirrorNow e.1 else s) s

/-- The points of logical core c of n in DET mode (05 R96). -/
def detRange (t n c : Nat) : List Nat := upFrom (c * t / n) ((c + 1) * t / n - c * t / n)

/-- Give points to a core (05 R98): they are in hand until they finish. -/
def State.give (s : State) (rid c lidx : Nat) (qs : List Nat) : State :=
  (s.upCore c (fun k => { k with todo := k.todo ++ qs })).upLaunch rid (fun l => { l with hand := l.hand ++ qs.map (fun q => (q, lidx)) })

/-- The points' first hand-out: each logical core's range in DET mode, a request from each in DYN mode (05 R96, R97). -/
def State.firstPoints (s : State) (rid : Nat) (l : Launch) : State :=
  (l.leads.zipIdx).foldl (fun s e =>
    if l.recd.dyn then (s.upCore e.1 (fun k => { k with asked := true })).owe (.dynRangeRequest e.1)
    else s.give rid e.1 e.2 (detRange l.points l.leads.length e.2)) s

/-- Cut ascending points into ranges of 64, from the first on (05 R97, R99: how reissued points form ranges is the model's, log 33). -/
def chunk64 : Nat → List Nat → List (List Nat)
  | 0, _ => []
  | _, [] => []
  | f + 1, qs => qs.take 64 :: chunk64 f (qs.drop 64)

/-- Insert a number into an ascending list. -/
def insAsc (q : Nat) : List Nat → List Nat
  | [] => [q]
  | x :: xs => if q ≤ x then q :: x :: xs else x :: insAsc q xs

/-- Lost points go back to their launch (05 R99): to their logical slices in DET mode, to ranges handed out before any other in DYN mode. -/
def Launch.takeBack (l : Launch) (qs : List Nat) : Launch :=
  let n := l.leads.length
  let sorted := qs.foldl (fun acc q => insAsc q acc) []
  if l.recd.dyn then { l with ranges := l.ranges ++ chunk64 sorted.length sorted }
  else
    let slices := (upFrom 0 n).map (fun c =>
      let r := detRange l.points n c
      let old := ((l.lost.filter (fun e => e.1 == c)).map Prod.snd).flatten
      (c, (sorted.filter r.contains).foldl (fun acc q => insAsc q acc) old))
    { l with lost := slices.filter (fun e => !e.2.isEmpty) }

/-- A core whose launch has ended: its registers stay as they stand until the next launch prepares it (02 R35, 21 R401). -/
def Core.leave (k : Core) : Core :=
  { k with rid := none, phase := .idle, tasks := [], todo := [], running := none, asked := false, pend := [], bpend := [], mx := [], mxBase := none
           sbuf := [], causes := [], op := none, await := [], mon := none, release := 0, stitchOp := none, bound := [], br := .none
           out := .no, cancelTc := none, stopNext := false, loopDue := false, posted := [], waitCame := false, came := [], tfail := []
           exiting := false, pairBad := none }

/-- The follower of a core's pair holds no context any more; its registers stay as they stand. -/
def State.dropFollower (s : State) (c : Nat) : State :=
  match look s.followers (partner c) with
  | none => s
  | some f => ({ s with followers := del s.followers (partner c) } : State).setCore (partner c) f.k.leave

/-- POINT_REISSUE (05 R99): a die of a launch's rectangle is lost. Its contexts end without records, a new master is elected, and every point
given to its cores and not finished is reissued. -/
def State.reissue (s : State) (rid d : Nat) : State :=
  match look s.launches rid with
  | none => s
  | some l =>
    let mine := ((l.leads.zipIdx).filter (fun e => coreDie e.1 == d)).map Prod.snd
    let lost := (l.hand.filter (fun e => mine.contains e.2)).map Prod.fst
    let s := l.cores.foldl (fun s c => if coreDie c = d ∧ (s.core c).rid = some rid then ((s.dropFollower c).setCore c Core.reset).deactivate c else s) s
    let m := if l.master = d ∨ (s.die l.master).st ≠ .live then (s.masterOf l.dies).getD l.master else l.master
    let l := { l with master := m, hand := l.hand.filter (fun e => !lost.contains e.1), done := l.done.filter (fun q => !lost.contains q) }
    s.setLaunch rid (l.takeBack lost)

/-- Dies of a launch's rectangle that were lost while it was being placed are treated as lost now (05 R99). -/
def State.reissueLost (s : State) (rid : Nat) : State :=
  match look s.launches rid with
  | none => s
  | some l => (l.dies.filter (fun d => (s.die d).st != .live)).foldl (fun s d => s.reissue rid d) s

/-- The cores of one die of a launch are prepared as at placement, to take reissued points (05 R99 step 5). -/
def State.prepareDie (s : State) (rid : Nat) (l : Launch) (d : Nat) : State :=
  match look s.codes l.code with
  | none => s
  | some x =>
    let s := (s.sliceInit l (fun e => e == d)).startCores rid l x (fun c => coreDie c == d)
    if l.recd.dyn then
      (l.leads.filter (fun c => coreDie c == d)).foldl (fun s c =>
        (s.upCore c (fun k => { k with asked := true })).owe (.dynRangeRequest c)) s
    else s

/-- The first re-admitted die of a rectangle without a live one (05 R99 step 5): it is master, and its cores run the reissued points. -/
def State.rejoin (s : State) (rid d : Nat) : State :=
  match look s.launches rid with
  | none => s
  | some l =>
    if l.state ≠ .placed ∨ !l.dies.contains d ∨ l.dies.any (fun e => e != d && (s.die e).st == .live) then s
    else (s.setLaunch rid { l with master := d }).prepareDie rid l d

/-- The rectangle of a launch that fails a placement check at the LC of die d is released (02 R38, 05 R89). -/
def State.placeFault (s : State) (rid : Nat) (l : Launch) (d : Nat) (f : Nat × Nat) : State :=
  ((s.dropSaved rid).freeCode l.code).launchFault rid { l with slots := [], evict := none } d f.1 f.2

/-- LAUNCH_START (02 R37, R38, R34 to R36): the rest of the image and the argument block are read and checked, the image first where
neither can be read (log 99); then the code copy is made, SLICEINIT applied once its slices are quiet, every core prepared, and the points
handed out. -/
def State.launchStart (s : State) (rid : Nat) : State :=
  let again : Instr := .launchStart rid
  match look s.launches rid with
  | none => s
  | some l =>
    if l.state ≠ .placing ∨ l.resume then s
    else
      let d := if (s.die l.master).st = .live then l.master else (s.masterOf l.dies).getD l.master
      if (s.die d).st ≠ .live then s.owe again else
      let h := l.header
      let r := l.recd
      let n := hdrLen h
      let img : LcRd (List Byte) := if 4194304 < n ∨ n ≤ 256 then .ok []
        else s.lcRead rid l d (r.image + 256) (n - 256) again
      let argn := r.arglen.toNat
      let args : LcRd (List Byte) := if 4096 < argn ∨ argn = 0 then .ok [] else s.lcRead rid l d r.args argn again
      match (rdWait img).or (rdWait args) with
      | some s => s
      | none =>
        let a := (rdVal args).getD []
        let b := h ++ (rdVal img).getD []
        let faults := rdFault img ++ rdFault args
          ++ imageAt r.image ++ (match rdVal img with | some _ => imageFaults h b | none => fault? 2 (least (layoutBad h [])))
          ++ (if attrNmv h then [(0x0B, 0)] else [])
          ++ (match rdVal img with
              | some _ => argFaults h b a argn
              | none => if 4096 < argn ∨ argn < bnat h 0x34 4 ∨ argn % 8 ≠ 0 then [(7, 0xFFFF)] else [])
          ++ s.sliceFaults l
        match lowest faults with
        | some f => s.placeFault rid l d f
        | none =>
          if !s.sliceInitQuiet l then s.owe again else
          let s := (s.lcRecall d (r.image + 256) (n - 256)).lcRecall d r.args argn
          let stack := ((upFrom 0 32).find? (fun k => (look (s.stack k).codeUse l.code).isSome)).getD (dieCell d)
          let x := mkCode h b stack
          let l := { l with state := .placed, args := a, master := d }
          let s := { s.setLaunch rid l with codes := put s.codes l.code x }
          ((((s.sliceInit l (fun _ => true)).startCores rid l x (fun _ => true)).firstPoints rid l).reissueLost rid).evictNow rid

/-- LAUNCH_START. -/
def execLaunchStart (rid : Nat) (s : State) : Host.Outcome State Fault Refusal := .next (s.launchStart rid)

/-- The lost slice of lowest logical index that still has points (05 R99). -/
def lostFirst : List (Nat × List Nat) → Option (Nat × List Nat)
  | [] => none
  | x :: xs => match lostFirst xs with
    | none => if x.2.isEmpty then none else some x
    | some y => if x.2.isEmpty ∨ y.1 < x.1 then some y else some x

/-- DYN_RANGE_REQUEST (05 R97, R99): the master hands core c its next range: one reissued, or the next 64 points; in DET mode the remainder
of the lowest-indexed lost slice, once the core's own range is finished. With no points left the core gets none. -/
def State.dynRange (s : State) (c : Nat) : State :=
  let k := s.core c
  match k.rid with
  | none => s
  | some rid => match look s.launches rid with
    | none => s
    | some l =>
      if l.state ≠ .placed ∨ (s.die (coreDie c)).st ≠ .live then s
      else
        let s := s.upCore c (fun k => { k with asked := false })
        if l.recd.dyn then
          match l.ranges with
          | qs :: rest => (s.setLaunch rid { l with ranges := rest }).give rid c k.lidx qs
          | [] =>
            let n := Nat.min 64 (l.points - l.given)
            if n = 0 then s else (s.setLaunch rid { l with given := l.given + n }).give rid c k.lidx (upFrom l.given n)
        else if k.tasks.isEmpty ∧ k.todo.isEmpty ∧ k.running.isNone then
          match lostFirst l.lost with
          | none => s
          | some (i, qs) => (s.setLaunch rid { l with lost := l.lost.filter (fun e => e.1 != i) }).give rid c k.lidx qs
        else s

/-- DYN_RANGE_REQUEST. -/
def execDynRangeRequest (c : Nat) (s : State) : Host.Outcome State Fault Refusal := .next (s.dynRange c)

/-- POINT_FINISH (05 R98): every surviving distributor holds the completion of point q. -/
def execPointFinish (rid q : Nat) (s : State) : Host.Outcome State Fault Refusal :=
  .next (match look s.launches rid with
    | none => s
    | some l =>
      if l.done.contains q then
        let l := { l with done := without l.done q, hand := l.hand.filter (fun e => e.1 != q), nfin := l.nfin + 1 }
        let s := s.setLaunch rid l
        if l.nfin = l.points then s.owe (.launchComplete rid) else s
      else s)

/-- A store or a contribution of the core has not been performed, and its cause is still to be taken (15 R304). -/
def Core.owesCause (k : Core) : Bool := k.causes.any (fun c => match c with | .weak _ _ | .hr _ => true | _ => false)

/-- A core's context has left its last point, and nothing of it is still to leave (05 R98). -/
def Core.finished (k : Core) : Bool :=
  k.phase == .table && k.tasks.isEmpty && k.todo.isEmpty && k.running.isNone && k.sbuf.isEmpty && k.mon.isNone && k.await.isEmpty
    && !k.owesCause

/-- Everything a launch's contexts sent is done (05 R98): stores and accumulate-writes are at home, engine requests are over. -/
def State.quietLaunch (s : State) (rid : Nat) : Bool :=
  !s.reqs.any (fun e => e.2.rid == some rid && (match e.2.k with | .page _ _ _ => false | _ => true)) &&
  !s.engs.any (fun e => e.2.rid == some rid)

/-- A JCB that cannot be reached now: its stack is shut (12 R258). -/
def State.jcbHeld (s : State) (pa : Option Nat) : Bool := match pa with | some pa => s.paHeld pa | none => false

/-- The cores of a launch are free again, its code copy and save slots are freed, and it is gone. -/
def State.endLaunch (s : State) (rid : Nat) (l : Launch) : State :=
  let s := l.cores.foldl (fun s c => if (s.core c).rid = some rid then ((s.dropFollower c).upCore c Core.leave).deactivate c else s) s
  ((s.dropSaved rid).freeCode l.code).dropLaunch rid

/-- LAUNCH_COMPLETE (05 R98, R101, 18 R350, 02 R32): a launch whose points are all finished posts to its DONEJCB; one that is stopping
marks it failed or cancelled once every context has stopped. -/
def State.launchComplete (s : State) (rid : Nat) : State :=
  match look s.launches rid with
  | none => s
  | some l =>
    let ks := l.leads.map s.core
    let flags := ks.foldl (fun f k => if k.rid = some rid ∧ k.phase ≠ .ended then f ||| k.flags else f) l.flags
    match l.state with
    | .queued =>
      if l.points ≠ 0 then s
      else if s.jcbHeld l.jdone then s.owe (.launchComplete rid)
      else (s.jcbPost l.jdone l.die 0 .completion 0).endLaunch rid l
    | .placed =>
      if l.nfin ≠ l.points then s
      else if !ks.all (fun k => k.rid != some rid || k.finished) ∨ !s.quietLaunch rid ∨ s.jcbHeld l.jdone then s.owe (.launchComplete rid)
      else (s.jcbPost l.jdone l.master 0 .completion flags).endLaunch rid l
    | .stopping failed =>
      if ks.any (fun k => k.rid == some rid && k.phase != .ended) then s
      else if s.jcbHeld l.jdone then s.owe (.launchComplete rid)
      else (s.jcbPost l.jdone (s.completingDie l.master) 0 (if failed then .fail else .cancel) flags).endLaunch rid l
    | _ => s

/-- LAUNCH_COMPLETE. -/
def execLaunchComplete (rid : Nat) (s : State) : Host.Outcome State Fault Refusal := .next (s.launchComplete rid)

end Sys2Proof.Machine
end

