-- ==== Sys2Proof/Machine/PageReply.lean ====
section
/-! DEFINITION. PageReply.lean: the reply to a page request (11 R249, 18 R365, R366). -/

namespace Sys2Proof.Machine

/-- A page request no longer keeps the core frozen (11 R249). -/
def Core.unawait (k : Core) (id : Nat) : Core :=
  { k with await := without k.await id, mon := k.mon.map (fun m => { m with await := without m.await id }) }

/-- A withheld entry whose page request failed is taken out of the buffer (13 R265). -/
def takeFailed (va : Word) : List SbEnt → Option (Req × List SbEnt)
  | [] => none
  | .req r :: rest =>
    if !r.done && r.va == va then some (r, rest)
    else (takeFailed va rest).map (fun p => (p.1, .req r :: p.2))
  | e :: rest => (takeFailed va rest).map (fun p => (p.1, e :: p.2))

/-- A page request of a core's access is answered with failure: PAGEF RESPFAIL (11 R248) of the access it was sent for, which is not
performed. -/
def Core.pageFail (k : Core) (c : Nat) (va : Word) : Core :=
  let t := pagef .respfail va
  let op := match k.mon with | some m => m.op | none => k.op
  let noOp : Core := { k with op := none, mon := k.mon.map (fun m => { m with op := none }) }
  let raise (k : Core) (p : PCause) : Core := match k.mon with
    | some m => { k with mon := some { m with causes := m.causes ++ [p] } }
    | none => { k with causes := k.causes ++ [p] }
  let other : Core := raise k (.opFault t (k.blankReq c va))
  match op with
  | some (.access r _) =>
    raise { noOp with pend := match r.k with
                        | .atomic _ _ _ _ _ => k.pend.filter (fun p => p.seq != r.pend)
                        | _ => k.pend } (.opFault t r)
  | some (.ctld _) => raise noOp (.opFault t (k.blankReq c va))
  | _ => match takeFailed va k.sbuf with
    | some (r, rest) =>
      raise { k with sbuf := rest, release := k.release - 1, mon := k.mon.map (fun m => { m with release := m.release - 1 }) } (.weak t r)
    | none => match k.phase with
      | .drain (.stitch (some _)) => { other with phase := .run, stitchOp := none }
      | _ => other

/-- The reply to request `id` is logged where the context that sent it is switched out (18 R365 kind 2). -/
def State.logPage (s : State) (id : Nat) (r : Req) (ok : Bool) : State :=
  match s.ctxAt r.core r.rid with
  | .saved n => s.logSlot n 2 (BitVec.ofNat 64 (id % 65536 + 2 ^ 16 * nb ok + 2 ^ 32 * r.gen.toNat))
  | _ => s

/-- An instruction that waits for the answer to its request traps instead, at its bundle (16 R327, R328, R330). -/
def State.answerTrap (s : State) (id : Nat) (r : Req) (t : TrapInfo) : State :=
  (s.dropReq id).upCtx r.core r.rid (fun k => { k with op := none, causes := k.causes ++ [.opFault t r] })

/-- A page request for an access that only reads. -/
def ReqK.pageOfRead : ReqK → Bool
  | .page w _ _ => !w
  | _ => false

/-- The page request `r` of the BKDEF whose request is `q` failed (16 R330): that of its descriptor is PAGEF, any other refuses the bucket. -/
def State.bkdefPage (s : State) (q : Nat) (r : Req) : State :=
  match look s.reqs q with
  | some b => if r.k.pageOfRead then s.answerTrap q b (pagef .respfail r.va) else s.upReq q (fun r => { r with done := false })
  | none => s

/-- A reply for a context's access (11 R249; for a BKDEF, 16 R330): on its core, or logged in the mailbox of its slot. -/
def State.corePage (s : State) (id : Nat) (r : Req) (ok : Bool) : State :=
  match s.ctxAt r.core r.rid with
  | .running => match ok, (s.core r.core).op.bind (fun o => match o with | .answer q _ => some q | _ => none) with
    | false, some q => (s.upCore r.core (fun k => k.unawait id)).bkdefPage q r
    | _, _ => s.upCore r.core (fun k => if ok then k.unawait id else (k.unawait id).pageFail r.core r.va)
  | _ => s.logPage id r ok

/-- A reply for a load in the return queue (18 R344): its translation is tried again, or its fault is recorded. One for a context that is
switched out is in its mailbox alone (18 R365, R366). -/
def State.loadPage (s : State) (id ld : Nat) (r : Req) (ok : Bool) : State :=
  let seq := ((look s.reqs ld).map (fun q => q.pend)).getD 0
  if s.ctxAt r.core r.rid ≠ .running then s.logPage id r ok
  else
  let s := s.upCtx r.core r.rid (fun k => k.unawait id)
  if ok then (s.upCtx r.core r.rid (fun k => k.upPend seq (fun p => { p with st := .wait }))).owe (.globalReadRequest (.core ld))
  else (s.dropReq ld).upCtx r.core r.rid (fun k => k.upPend seq (fun p => { p with st := .fault (pagef .respfail r.va) }))

/-- A reply for a condition of a dependency table (07 R149): a failure is kept, and is PAGEF RESPFAIL when the condition is next
looked at, before the next task. -/
def State.tableReply (s : State) (id : Nat) (r : Req) (ok : Bool) : State :=
  let s := s.logPage id r ok
  if ok then s else s.upCtx r.core r.rid (fun k => { k with tfail := addNew k.tfail (r.va.toNat / 4096) })

/-- The step of an LC that waits for a page (02 R37). -/
def Launch.waitStep (rid : Nat) (l : Launch) : List Instr :=
  match l.state with
  | .accepting => [.launchAcceptance rid]
  | .placing => [if l.resume then .contextRestore rid else .launchStart rid]
  | _ => []

/-- The step of an engine request. -/
def Eng.stepOf (id : Nat) (e : Eng) : List Instr :=
  match e.k with
  | .copy _ _ _ _ _ | .copys => [.copyComplete id]
  | .fill _ _ _ => [.sleeveFillComplete id]
  | .gather _ _ => [.gatherRequest id]
  | .push _ _ _ _ => [.pushArrival (.own id)]

/-- The element of a gather for whose bytes a page was asked for (12 R261). -/
def State.gatherAt (s : State) (e : Eng) (spt count va : Nat) : Nat × Nat :=
  match s.gatherBad spt count with
  | .error _ => (e.src.toNat, 0)
  | .ok g =>
    (va, ((upFrom 0 (Nat.min count 1048576)).find? (fun j => (g.addr e.src j).toNat == va)).getD 0)

/-- A reply for an engine's request (13 R281): it goes on, or stops with RESPFAIL; the record of a gather names the element (12 R261). -/
def State.engReply (s : State) (id : Nat) (r : Req) (ok : Bool) : State :=
  match look s.engs id with
  | none => s
  | some e =>
    let s := { s with engs := put s.engs id { e with page := none } }
    if ok then s.oweAll (e.stepOf id)
    else match e.k with
      | .gather spt n =>
        let a := s.gatherAt e spt n r.va.toNat
        s.gatherFault id a.1 a.2 spt e.stack 7 6
      | _ => s.engStop id 7

/-- PAGE_REQUEST_RESPONSE (11 R249, 18 R366): a page that is now present, as `news` gives its leaves, is translated anew. A reply for a
tag that is not LIVE, or was freed since the request, is discarded. -/
def State.pageReply (s : State) (id : Nat) (ok : Bool) (news : List Leaf) : State :=
  match look s.reqs id with
  | none => s
  | some r => match r.k with
    | .page _ e why =>
      let s := s.dropReq id
      let s := if ok then ({ s with iommu := news ++ s.iommu } : State).forget e r.va.toNat else s
      if s.tagDead r.owner ∨ r.gen ≠ (s.tag r.owner).gen then s
      else match why with
        | .core => s.corePage id r ok
        | .load ld => s.loadPage id ld r ok
        | .table => s.tableReply id r ok
        | .lc rid => match look s.launches rid with
          | none => s
          | some l => (if ok then s else s.setLaunch rid { l with failed := addNew l.failed (r.va.toNat / 4096) }).oweAll (l.waitStep rid)
        | .mon d => if ok then s else s.upDie d (fun x => { x with monFailed := addNew x.monFailed (r.va.toNat / 4096) })
        | .eng n => s.engReply n r ok
        | .share k b => if ok then s else s.upStack k (fun x => { x with buckets := match look x.buckets b with
            | some y => put x.buckets b { y with failed := addNew y.failed (r.va.toNat / 4096) }
            | none => x.buckets })
    | _ => s

/-- PAGE_REQUEST_RESPONSE. -/
def execPageRequestResponse (id : Nat) (answer : PageAnswer) (s : State) : Host.Outcome State Fault Refusal :=
  .next (match answer with
    | .success news => s.pageReply id true news
    | .failure => s.pageReply id false [])

end Sys2Proof.Machine
end

