-- ==== Sys2Proof/Machine/Tags.lean ====
section
/-! DEFINITION. Tags.lean: the tag allocator (03 R50 to R53, 16 R327 to R329), killing a tag (03 R55), retiring one (22 R422 to R424). -/

namespace Sys2Proof.Machine

/-- A number in Sd of a core whose stitching instruction is answered; the stitch point follows (20 R380 step 4). -/
def State.answerStitch (s : State) (c id : Nat) (v : Word) : State :=
  match (s.core c).op with
  | some (.answer q sd) => if q = id then (s.upCore c (fun k => k.setS sd.toNat v)).endStitch c else s
  | _ => s

/-- A grant or refusal is found for a TAGNEW: its answer is under way. -/
def State.tagAnswer (s : State) (id tag : Nat) : State :=
  match look s.reqs id with
  | none => s
  | some r => (s.upReq id (fun r => { r with data := BitVec.ofNat 1024 (tag + 1) })).owe (.tagnewAnswer r.core tag)

/-- The lowest-numbered FREE tag (03 R52). -/
def State.freeTag (s : State) : Option Nat := (upFrom 1 4094).find? (fun t => (s.tag t).st == .free)

/-- Grant a child of a parent (03 R50, R53). -/
def State.grantTag (s : State) (id t parent quota : Nat) : State :=
  let e := s.tag t
  (s.setTag t ⟨.live, (s.tag parent).depth + 1, parent, quota, e.gen + 1⟩).tagAnswer id t

/-- A TAGNEW at the allocator is refused, granted, or must wait (03 R52). -/
def State.tryTag (s : State) (id parent quota : Nat) : Option State :=
  if (s.tag parent).st ≠ .live ∨ (s.tag parent).depth = 15 then some (s.tagAnswer id 4095)
  else if s.hxd.tgaLimit ≤ s.tagCount then none
  else s.freeTag.map (fun t => s.grantTag id t parent quota)

/-- The allocator finds that a stitching instruction names a tag that is not below its own (03 R50): its core traps ILLOP. -/
def State.allocTrap (s : State) (id : Nat) (r : Req) (d : BitVec 32) : State :=
  s.answerTrap id r ⟨.illop, d, 0⟩

/-- TAGNEW_REQUEST (03 R52, 16 R327): requests wait in the order they reached the allocator, which drops none of them. -/
def State.tagnewReq (s : State) (id : Nat) : State :=
  match look s.reqs id with
  | none => s
  | some r => match r.k with
    | .tagnew p q =>
      if r.owner ≠ 0 ∧ s.within p r.owner = false then s.allocTrap id r 0x802
      else
        let wait := s.upHxd (fun h => { h with tagWait := addNew h.tagWait id })
        if !s.hxd.tagWait.isEmpty ∧ (s.tag p).st = .live ∧ (s.tag p).depth < 15 then wait
        else (s.tryTag id p q).getD wait
    | _ => s

/-- TAGNEW_REQUEST. -/
def execTagnewRequest (id : Nat) (s : State) : Host.Outcome State Fault Refusal := .next (s.tagnewReq id)

/-- TAGNEW_ANSWER (16 R327, 18 R365 kind 5): the answer reaches its core, or the mailbox of its context. -/
def execTagnewAnswer (c tag : Nat) (s : State) : Host.Outcome State Fault Refusal :=
  .next (s.reqs.foldl (fun s e => match e.2.k with
    | .tagnew _ _ =>
      if e.2.core = c ∧ e.2.data = BitVec.ofNat 1024 (tag + 1) then
        let s := s.dropReq e.1
        match s.ctxAt c e.2.rid with
        | .running => s.answerStitch c e.1 (BitVec.ofNat 64 tag)
        | .saved n => s.logSlot n 5 (BitVec.ofNat 64 tag)
        | .gone => s
      else s
    | _ => s) s)

/-- Waiting requests are looked at in order: those whose parent has left LIVE are refused, and as many as find a tag are granted
(03 R52). -/
def State.serveTags (s : State) : List Nat → State
  | [] => s
  | id :: ids => match look s.reqs id with
    | none => (s.upHxd (fun h => { h with tagWait := without h.tagWait id })).serveTags ids
    | some r => match r.k with
      | .tagnew p q =>
        match s.tryTag id p q with
        | some s => (s.upHxd (fun h => { h with tagWait := without h.tagWait id })).serveTags ids
        | none => s.serveTags ids
      | _ => s.serveTags ids

/-- The same for every waiting request. -/
def State.serveWaiting (s : State) : State := s.serveTags s.hxd.tagWait

/-- TGA_LIMIT (03 R51). -/
def execTgaLimitWrite (v : Word) (s : State) : Host.Outcome State Fault Refusal :=
  let n := v.toNat % 4096
  .next (if n = 0 ∨ 4094 < n then s else (s.upHxd (fun h => { h with tgaLimit := n })).serveWaiting)

/-- TAGQ's answer (16 R329). -/
def execTagqAnswer (id : Nat) (s : State) : Host.Outcome State Fault Refusal :=
  .next (match look s.reqs id with
    | none => s
    | some r => match r.k with
      | .tagq t =>
        let s1 := s.dropReq id
        if s.tagDead r.owner then s1
        else s1.upCtx r.core r.rid (fun k => k.upPend r.pend (fun p =>
          { p with val := vecOfWord (BitVec.ofNat 64 (s.tag t).word), st := .ready }))
      | _ => s)

/-- A descendant of a tag is LIVE or HELD (03 R53). -/
def State.liveBelow (s : State) (t : Nat) : Bool :=
  s.hxd.tags.any (fun e => (e.2.st == .live || e.2.st == .held) && s.descends 16 e.1 t)

/-- Stop at once every context that a launch has on a core (03 R55). -/
def State.stopAll (s : State) (rid : Nat) (l : Launch) : State :=
  l.cores.foldl (fun s c => if (s.core c).rid = some rid then s.stopCore c else s) s

/-- A launch under one of some tags ends (03 R55, 22 R422): its contexts end, its DONEJCB is marked failed. The second part says whether
it did. -/
def State.endTagged (s : State) (p : Nat → Bool) (rid : Nat) : State × Bool :=
  match look s.launches rid with
  | none => (s, false)
  | some l =>
    let mine := p (l.recd.tag.toNat % 4096)
    match l.state with
    | .held =>
      if p (s.heldWord l 0x10 2 % 4096) then
        (((s.jcbPost (s.heldJcb l) (s.completingDie l.die) 0 .fail 0).answerLnch l 0).dropLaunch rid, true)
      else (s, false)
    | .accepting => (s, false)
    | .waiting | .queued | .placing | .switchedOut => if mine then (s.endQuietly rid l .fail, true) else (s, false)
    | .placed | .preempting | .stopping _ =>
      if mine then (((s.startStop rid l true).stopAll rid l).owe (.launchComplete rid), true) else (s, false)

/-- Every bucket of some tags that is OPEN or RUNNING becomes FAILED (22 R412, R422). -/
def State.endBuckets (s : State) (p : Nat → Bool) (reason : Nat) : State × Bool :=
  s.stks.foldl (fun acc e => e.2.buckets.foldl (fun (acc : State × Bool) b =>
    if (p b.2.tag || p b.2.atag) && (b.2.st == .open_ || b.2.st == .running) then (acc.1.failBucket e.1 b.1 reason, true) else acc) acc) (s, false)

/-- Shares running under some tags end (22 R422). -/
def State.endShares (s : State) (p : Nat → Bool) (reason : Nat) : State × Bool :=
  s.cores.foldl (fun (acc : State × Bool) e =>
    if e.2.share.isSome && p e.2.ctag.toNat then ((acc.1.endShare e.1 reason).deactivate e.1, true) else acc) (s, false)

/-- Work under some tags ends. -/
def State.endWork (s : State) (p : Nat → Bool) (reason : Nat) : State × Bool :=
  let a := s.launches.foldl (fun (acc : State × Bool) e =>
    let r := acc.1.endTagged p e.1
    (r.1, acc.2 || r.2)) (s, false)
  let b := a.1.endBuckets p reason
  let c := b.1.endShares p reason
  (c.1, a.2 || b.2 || c.2)

/-- Requests of a tag that wait for a page, or are in custody for a peer, look at their tag again: one that is not LIVE any more drops them
where they stand, with their count (03 R53). -/
def State.recheck (s : State) (t : Nat) : State :=
  let s := s.engs.foldl (fun s e =>
    if e.2.owner = t ∧ (e.2.page.isSome ∨ (e.2.eng = 4 ∧ e.2.prog ≠ 0)) then
      ({ s.dropPages e.2 with engs := put s.engs e.1 { e.2 with page := none } } : State).oweAll (e.2.stepOf e.1)
    else s) s
  s.reqs.foldl (fun s e => if e.2.owner = t ∧ e.2.k.isAcc ∧ region e.2.pa = Region.remote then s.owe (.gaccArrival (.own e.1)) else s) s

/-- A tag enters DRAINING: requests of it that wait are to be dropped, and each stack is to free what it holds of it (22 R423). -/
def State.setDraining (s : State) (t : Nat) : State :=
  ((s.recheck t).setTag t { s.tag t with st := .draining }).oweAll ((upFrom 0 32).map (fun k => Instr.tagDrain t k))

/-- Work outstanding under a retired tag is ended, with one TAGEND record (22 R422). -/
def State.retireWork (s : State) (t : Nat) : State :=
  let r := s.endWork (fun u => u == t) 4
  if r.2 then r.1.emit false .hxd { code := 0x56, tag := t, detail := 1 } else r.1

/-- A HELD tag whose last LIVE or HELD descendant is gone enters DRAINING, and so up (03 R53). -/
def State.settleUp : Nat → State → Nat → State
  | 0, s, _ => s
  | f + 1, s, p =>
    if p = 0 ∨ (s.tag p).st ≠ .held ∨ s.liveBelow p = true then s
    else settleUp f ((s.setDraining p).retireWork p) (s.tag p).parent

/-- TAGRET_APPLY (16 R328, 03 R53, 22 R422). -/
def State.tagret (s : State) (id : Nat) : State :=
  match look s.reqs id with
  | none => s
  | some r => match r.k with
    | .tagret t =>
      let s := s.dropReq id
      if s.tagDead r.owner then s
      else if r.owner ≠ 0 ∧ s.descends 16 t r.owner = false then s.allocTrap id r 0x803
      else
        let e := s.tag t
        let s := if e.st ≠ .live then s.emit false .hxd { code := 0x54, tag := t, detail := e.st.code }
          else if s.liveBelow t then (((s.recheck t).setTag t { e with st := .held }).retireWork t).serveWaiting
          else (settleUp 16 ((s.setDraining t).retireWork t) e.parent).serveWaiting
        match s.ctxAt r.core r.rid with
        | .running => s.answerStitch r.core id 0
        | _ => s
    | _ => s

/-- TAGRET_APPLY. -/
def execTagretApply (id : Nat) (s : State) : Host.Outcome State Fault Refusal := .next (s.tagret id)

/-- The place that holds a killed entry (20 R397): for structures of a die, the address names the die; for core state, the core. -/
def killSrc (st addr : Nat) : RecSrc :=
  if st = 5 ∨ st = 10 then .core addr
  else if st = 2 ∨ st = 3 ∨ st = 6 then .lc (addr % 64)
  else if st = 8 ∨ st = 11 then .hxd
  else .rbd (paStack addr)

/-- TAG_KILL (03 R55, 20 R397): a tag and its descendants are killed, with one record. Tag 0 is never killed. -/
def State.killTag (s : State) (t st addr : Nat) (src : RecSrc := killSrc st addr) : State :=
  if t = 0 ∨ (s.tag t).st = .free ∨ (s.tag t).st = .draining then s
  else
    let dead := t :: (s.hxd.tags.filter (fun e => (e.2.st == .live || e.2.st == .held) && s.descends 16 e.1 t)).map Prod.fst
    let parent := (s.tag t).parent
    let s := s.emit true src
      { code := 0x41, tag := t, detail := st, addr := if st = 2 ∨ st = 3 ∨ st = 5 ∨ st = 6 ∨ st = 10 ∨ st = 11 then 0 else addr }
    let s := dead.foldl State.setDraining s
    let s := (s.endWork dead.contains 2).1
    (settleUp 16 s parent).serveWaiting

/-- TAG_KILL. -/
def execTagKill (tag structure_ addr : Nat) (s : State) : Host.Outcome State Fault Refusal := .next (s.killTag tag structure_ addr)

/-- A granule of a stack is declared dead (12 R252): its rows' counters are reset, its poison is gone. -/
def Stack.declareDead (k : Stack) (stack g : Nat) : Stack :=
  let rows := (upFrom 0 64).map (fun i => rowKey (stack * 2 ^ 37 + 65536 * g + 1024 * i))
  { k with deadG := insertUp g k.deadG, rows := k.rows.filter (fun e => !rows.contains e.1)
           poison := k.poison.filter (fun u => (128 * u) % 2 ^ 37 / 65536 != g) }

/-- What a stack frees of a tag in DRAINING (22 R423 step 2): buckets and staging entries, cells, chunks, which become dead granules. -/
def Stack.freeTag (k : Stack) (stack t : Nat) : Stack :=
  let mine := k.buckets.filter (fun b => b.2.tag == t)
  let staged := (mine.map (fun b => ((vals b.2.chunks).map (fun c => c.staged.length)).sum)).sum
  let live := (mine.filter (fun b => b.2.st == .open_ || b.2.st == .running)).length
  let chunks := (k.chunkOf.filter (fun e => e.2 == t)).map Prod.fst
  let k := { k with
    buckets := k.buckets.filter (fun b => b.2.tag != t), stage := if live = 0 then k.stage else k.stage - staged
    cells := k.cells.filter (fun e => e.1 / 2 ^ 32 != t), place := k.place.filter (fun e => e.1 / 2 ^ 32 != t)
    chunkOf := k.chunkOf.filter (fun e => e.2 != t), cellPoison := k.cellPoison.filter (fun u => u / 8 / 2 ^ 32 != t) }
  chunks.foldl (fun k ch => k.declareDead stack (poolGranule ch)) k

/-- Every die drops its entries of a tag (22 R423 step 1). -/
def State.dropTagLines (s : State) (t : Nat) : State :=
  { s with dies := s.dies.map (fun (d, x) => (d, { x with guest := x.guest.filter (fun e => e.1 / 2 ^ 49 != t) })) }

/-- TAG_DRAIN (22 R423): once every die has dropped the lines of the tag, the stack frees what it holds; a stack in DRAINING, SELFREF or
reset delays the step. -/
def execTagDrain (tag k : Nat) (s : State) : Host.Outcome State Fault Refusal :=
  .next (if (s.tag tag).st ≠ .draining ∨ 32 ≤ k then s
    else if s.stackShut k then s.owe (.tagDrain tag k)
    else
      ((s.dropTagLines tag).upStack k (fun x => x.freeTag k tag)).owe (.tagFree tag))

/-- A page request is answered and discarded by tag and generation (18 R366). -/
def ReqK.isPage : ReqK → Bool
  | .page _ _ _ => true
  | _ => false

/-- TAG_FREE (22 R423 step 3): once every stack has reported and no request of the tag is left, the tag is FREE, and a waiting TAGNEW may
have it. -/
def execTagFree (tag : Nat) (s : State) : Host.Outcome State Fault Refusal :=
  .next (if (s.tag tag).st ≠ .draining then s
    else if s.inflight.any (fun i => match i with | .tagDrain t _ => t == tag | _ => false)
        || s.reqs.any (fun e => e.2.owner == tag && !e.2.k.isPage) || s.engs.any (fun e => e.2.owner == tag) then s.owe (.tagFree tag)
    else (s.setTag tag ⟨.free, 0, 0, 0, (s.tag tag).gen⟩).serveWaiting)

end Sys2Proof.Machine
end

