-- ==== Sys2Proof/Machine/Buckets.lean ====
section
/-! DEFINITION. Buckets.lean: the bucket engine of an RBD (22 R404 to R412), declaring a bucket (16 R330, 22 R414), and accumulate-writes
between packages (25 R447, R448). -/

namespace Sys2Proof.Machine

/-- Change bucket b of stack k, where there is one. -/
def State.upBucket (s : State) (k b : Nat) (f : Bucket → Bucket) : State :=
  match look (s.stack k).buckets b with
  | none => s
  | some x => s.upStack k (fun y => { y with buckets := put y.buckets b (f x) })

/-- A chunk with nothing counted (22 R407). -/
def Chunk.blank : Chunk := ⟨0, [], [], [], 0, false⟩

/-- Chunk c of a bucket. -/
def Bucket.chunk (b : Bucket) (c : Nat) : Chunk := (look b.chunks c).getD Chunk.blank

/-- Elements of chunk c below COUNT (22 R405). -/
def Bucket.chunkLen (b : Bucket) (c : Nat) : Nat := Nat.min b.wc (b.count - b.wc * c)

/-- Input elements below COUNT, as FP32 (22 R405): BF16 is widened exactly. -/
def Bucket.inputs (b : Bucket) (c : Nat) (v : Vec) : List Lane :=
  (upFrom 0 (b.chunkLen c)).map (fun i => if b.fp32 then lane v i else (v.extractLsb' (16 * i) 16).setWidth 32 <<< 16)

/-- Round(a + b) of one element (22 R408), with its flags (22 R410). -/
def addLane (a b : Lane) : Lane × Flags :=
  let r := (dec .fp32 a.toNat).add (dec .fp32 b.toNat)
  let x := roundTo fmt32 .rne r.1
  (BitVec.ofNat 32 x.1, (r.2 ||| x.2) &&& 0x0F)

/-- The same element by element. -/
def addLanes (a b : List Lane) : List Lane × Flags :=
  let r := (a.zip b).map (fun e => addLane e.1 e.2)
  (r.map Prod.fst, flOr (r.map Prod.snd))

/-- Any element is an infinity or a NaN. -/
def anyNonFinite (l : List Lane) : Bool := l.any (fun x => (dec .fp32 x.toNat).nonFinite)

/-- TREE's merging of nodes of equal level (22 R408): the stack, top first, the flags, and whether a sum became non-finite, which stops
all addition. -/
def treePush (lv : Nat) (y : List Lane) : List (Nat × List Lane) → List (Nat × List Lane) × Flags × Bool
  | [] => ([(lv, y)], 0, false)
  | (m, w) :: rest =>
    if m ≠ lv then ((lv, y) :: (m, w) :: rest, 0, false)
    else
      let r := addLanes w y
      if anyNonFinite r.1 then ((lv + 1, r.1) :: rest, r.2, true)
      else
        let q := treePush (lv + 1) r.1 rest
        (q.1, r.2 ||| q.2.1, q.2.2)

/-- TREE's final sum (22 R408): the nodes from the top down. -/
def treeFold (acc : List Lane) : List (Nat × List Lane) → List Lane × Flags × Bool
  | [] => (acc, 0, false)
  | (_, w) :: rest =>
    let r := addLanes w acc
    if anyNonFinite r.1 then (r.1, r.2, true)
    else
      let q := treeFold r.1 rest
      (q.1, r.2 ||| q.2.1, q.2.2)

/-- The notice that a contribution's core gets: the handle, and above it one more than its launch's number. -/
def nfWord (rid : Option Nat) (k b : Nat) : Nat := bucketHandle k b + 2 ^ 32 * (match rid with | some r => r + 1 | none => 0)

/-- The non-finite event of a bucket (22 R411), caused by a contribution: the notice travels with its reply, or separately where that
reply has gone. That of a remote sender passes through the aperture to its launch, whose token is cancelled there (25 R448). -/
def State.nonFinite (s : State) (k b : Nat) (x : Contrib) : State :=
  match look (s.stack k).buckets b with
  | none => s
  | some y =>
    if y.st ≠ .open_ then s
    else
      let n := ((vals y.chunks).map (fun c => c.staged.length)).sum
      let s := s.upStack k (fun z => { z with stage := z.stage - n })
      let s := s.upBucket k b (fun y => { y with st := .nonfinite, flags := y.flags ||| flNF
                                                 chunks := y.chunks.map (fun c => (c.1, { c.2 with staged := [] })) })
      let s := (s.jcbPost y.jcb (s.stackDie k) y.tag .cancel (y.flags ||| flNF)).cancelToken x.token.toNat
      match x.peer with
      | some (pkg, l, c) => s.upHxd (fun h => { h with notices := h.notices ++ [(pkg, l, c, bucketHandle k b)] })
      | none =>
      if x.rid.isNone then s
      else if x.replied then s.oweEach (.nfNotice x.core (.own (nfWord x.rid k b)))
      else s.raise x.core x.rid (.nf (BitVec.ofNat 32 (bucketHandle k b))) none

/-- Poison found in the sums by a contribution (20 R379): its owner tag is killed; under tag 0 it fails and its core, one of this package,
rewinds. -/
def State.sumPoison (s : State) (x : Contrib) (pa : Nat) : State :=
  if x.owner ≠ 0 then s.owe (.tagKill x.owner 1 pa)
  else if x.peer.isNone ∧ s.ctxAt x.core x.rid = .running then s.rewindCore x.core .poison pa
  else s

/-- A poisoned unit of the sums of elements i to i + n − 1. -/
def State.badSum (s : State) (b : Bucket) (i n : Nat) : Option Nat :=
  ((upFrom 0 (ceilDiv n 32)).map (fun u => b.sumPa (i + 32 * u))).find? (fun pa => s.cellPoisoned b.tag pa 4 b.zero)

/-- Dies give up lines of sums that the RBD writes (11 R244). -/
def State.recallSums (s : State) (b : Bucket) (i n : Nat) : State :=
  if b.tag ≠ 0 then s else (upFrom 0 (ceilDiv n 32)).foldl (fun s u => s.recall (b.sumPa (i + 32 * u)) 128 none) s

/-- Store sums, and see what they have become (22 R408, R410, R411): whether the addition stands. A granule that would be materialised
from poison consumes it (20 R379). -/
def State.storeSums (s : State) (k b c : Nat) (x : Contrib) (out : List Lane) (fl : Flags) (f : Bucket → Bucket) : State × Bool :=
  match look (s.stack k).buckets b with
  | none => (s, false)
  | some y =>
    match ((upFrom 0 (ceilDiv out.length 32)).findSome? (fun u => s.matPoison y.tag (y.sumPa (y.wc * c + 32 * u)) y.zero)) with
    | some pa => (s.sumPoison x pa, false)
    | none =>
    match s.setSums y (y.wc * c) out with
    | .error _ => (s.failBucket k b 1, false)
    | .ok s =>
      let s := (s.recallSums y (y.wc * c) out.length).upBucket k b (fun y => f { y with flags := y.flags ||| fl })
      if anyNonFinite out then (s.nonFinite k b x, false) else (s, true)

/-- Apply one contribution to its chunk (22 R408): whether the addition stands. -/
def State.applyOne (s : State) (k b c : Nat) (x : Contrib) : State × Bool :=
  match look (s.stack k).buckets b with
  | none => (s, false)
  | some y =>
    let ch := y.chunk c
    let n := y.chunkLen c
    let i := y.wc * c
    let inp := y.inputs c x.data
    let counted (y : Bucket) : Bucket := { y with applied := y.applied + 1 }
    match y.order with
    | .tree =>
      let r := treePush 0 inp ch.stack
      let last : Bool := ch.next + 1 == y.contrib && !r.2.2
      let ch := { ch with stack := r.1, napplied := ch.napplied + 1 }
      let s := s.upBucket k b (fun y => counted { y with chunks := put y.chunks c ch, flags := y.flags ||| r.2.1 })
      if r.2.2 then (s.nonFinite k b x, false)
      else if !last then (s, true)
      else match r.1 with
        | [] => (s, true)
        | (_, top) :: rest =>
          let q := treeFold top rest
          if q.2.2 then ((s.upBucket k b (fun y => { y with flags := y.flags ||| q.2.1 })).nonFinite k b x, false)
          else
            let z := addLanes (List.replicate n 0) q.1
            s.storeSums k b c x z.1 (q.2.1 ||| z.2) id
    | _ =>
      let first : Bool := ch.napplied == 0
      match (if first then none else s.badSum y i n) with
      | some pa => (s.sumPoison x pa, false)
      | none =>
        let acc := if first then List.replicate n 0 else s.sums y i n
        let z := addLanes acc inp
        let ch := { ch with napplied := ch.napplied + 1, bitmap := if y.order = .arrival then addNew ch.bitmap x.slot else ch.bitmap }
        s.storeSums k b c x z.1 z.2 (fun y => counted { y with chunks := put y.chunks c ch })

/-- Contributions of slots NEXT, NEXT + 1, … of a chunk are applied in turn, the later ones from staging (22 R407). -/
def State.applyRun : Nat → State → Nat → Nat → Nat → Contrib → State
  | 0, s, _, _, _, _ => s
  | f + 1, s, k, b, c, x =>
    let r := s.applyOne k b c x
    if !r.2 then r.1
    else
      let s := r.1.upBucket k b (fun y => { y with chunks := put y.chunks c { y.chunk c with next := (y.chunk c).next + 1 } })
      match look (s.stack k).buckets b with
      | none => s
      | some y =>
        let ch := y.chunk c
        match ch.staged.find? (fun z => z.slot == ch.next) with
        | none => s
        | some z =>
          let s := s.upBucket k b (fun y => { y with chunks := put y.chunks c { ch with staged := ch.staged.filter (fun w => w.slot != z.slot) } })
          State.applyRun f (s.upStack k (fun w => { w with stage := w.stage - 1 })) k b c z

/-- The bucket is complete: it becomes RUNNING, and its action is queued (22 R412, R415, R416). -/
def State.bucketRuns (s : State) (k b : Nat) : State :=
  match look (s.stack k).buckets b with
  | none => s
  | some y =>
    let s := s.upBucket k b (fun y => { y with st := .running })
    if y.copyout then (s.upStack k (fun z => { z with copies := addNew z.copies b })).owe (.copyOutComplete k b)
    else (s.upStack k (fun z => { z with shares := z.shares ++ (upFrom 0 y.ways).map (fun w => (b, w)) })).owe (.shareStart k)

/-- A chunk with every slot applied is complete, and with the last one the bucket (22 R408). -/
def State.chunkDone (s : State) (k b c : Nat) : State :=
  match look (s.stack k).buckets b with
  | none => s
  | some y =>
    let ch := y.chunk c
    if y.st ≠ .open_ ∨ ch.complete ∨ ch.napplied < y.contrib then s
    else
      let y := { y with chunks := put y.chunks c { ch with complete := true } }
      let s := s.upBucket k b (fun _ => y)
      if (y.chunks.filter (fun e => e.2.complete)).length = y.nchunks then s.bucketRuns k b else s

/-- The byte of a bucket's sums at a physical address, as an offset from BASE (22 R406). -/
def Bucket.offsetOf (b : Bucket) (pa : Nat) : Option Nat :=
  (b.pages.findIdx? (fun p => p / 4096 == pa / 4096)).bind (fun i =>
    let o := 4096 * i + pa % 4096
    if b.base.toNat % 4096 ≤ o ∧ o < b.base.toNat % 4096 + 4 * b.count then some (o - b.base.toNat % 4096) else none)

/-- What the bucket engine answers (22 R406, R407). -/
inductive GReply where
  | refused (detail : Nat)
  | duplicate | discarded | applied | staged | retry
  deriving DecidableEq, Repr

/-- A reply as a number, for a peer: the detail word of a refusal, or the reply's place in the table of R407. -/
def GReply.code : GReply → Nat
  | .duplicate => 0 | .discarded => 1 | .applied => 2 | .staged => 3 | .retry => 4 | .refused d => d

/-- Handle a contribution at stack k with a tag and physical address (22 R406 to R411). -/
def State.contribute (s : State) (k tag pa : Nat) (x : Contrib) : State × GReply :=
  match (s.stack k).buckets.findSome? (fun e =>
      if e.2.tag = tag then (e.2.offsetOf pa).map (fun o => (e.1, e.2, o)) else none) with
  | none => (s, .refused 0x901)
  | some (b, y, o) =>
    if y.contrib ≤ x.slot then (s, .refused 0x902)
    else if o % (4 * y.wc) ≠ 0 then (s, .refused 0x903)
    else
      let c := o / (4 * y.wc)
      let ch := y.chunk c
      let dup := (s.upBucket k b (fun y => { y with dups := y.dups + 1 }), GReply.duplicate)
      let counted : Bool := match y.order with
        | .arrival => ch.bitmap.contains x.slot
        | _ => decide (x.slot < ch.next) || ch.staged.any (fun z => z.slot == x.slot)
      match y.st with
      | .running | .done => dup
      | .failed | .nonfinite => (s, .discarded)
      | .open_ =>
        if counted then dup
        else
          let ready : Bool := y.order == .arrival || x.slot == ch.next
          if !ready ∧ stageSize ≤ (s.stack k).stage then (s.upBucket k b (fun y => { y with retries := y.retries + 1 }), .retry)
          else if anyNonFinite (y.inputs c x.data) then (s.nonFinite k b { x with replied := false }, .discarded)
          else if ready then
            ((if y.order = .arrival then (s.applyOne k b c x).1 else State.applyRun (ch.staged.length + 1) s k b c x).chunkDone k b c, .applied)
          else ((s.upBucket k b (fun y => { y with chunks := put y.chunks c { ch with staged := ch.staged ++ [x] } })).upStack k
                 (fun z => { z with stage := z.stage + 1 }), .staged)

/-- The token and identity that a request's contribution carries (22 R407, R411). -/
def State.contribOf (s : State) (r : Req) (slot : Nat) : Contrib :=
  { slot := slot, data := r.data, core := r.core, rid := r.rid, owner := r.owner
    token := match r.rid.bind (look s.launches) with | some l => l.recd.token | none => 0 }

/-- Peer of a physical address in the remote aperture (25 R437, R448). -/
def peerOf (pa : Nat) : Nat := pa / 2 ^ 42 % 4096

/-- The UP port by which request `id` leaves for a peer (25 R447): of several, a hash of its identity chooses one, which is free
(log 27). -/
def Hxd.portTo (h : Hxd) (peer id : Nat) : Option Nat :=
  match (upFrom 0 64).filter (fun n => (h.port n).st == .up && (h.port n).recorded && (h.port n).partner == peer &&
    bit ((look h.regs (regKey 11 (0x1000 + 8 * peer))).getD 0).toNat n) with
  | [] => none
  | [n] => some n
  | n :: ns => some (ns.getD (Config.portHash id % (ns.length + 1)) n)

/-- A request waits at a port in custody until the peer reports it accepted (25 R447). -/
def State.toPort (s : State) (n id : Nat) : State :=
  s.upHxd (fun h => { h with ports := put h.ports n { h.port n with custody := addNew (h.port n).custody id } })

/-- It leaves custody. -/
def State.fromPorts (s : State) (id : Nat) : State :=
  s.upHxd (fun h => { h with ports := h.ports.map (fun e => (e.1, { e.2 with custody := without e.2.custody id })) })

/-- A refused contribution is an imprecise ILLOP of its core (22 R406, 13 R265). -/
def State.refuseGacc (s : State) (id : Nat) (r : Req) (d : Nat) : State :=
  (s.upReq id (fun r => { r with done := false, pa := d })).owe (.weakStoreFault r.core id)

/-- A GACC of this package reaches its bucket engine, or a port (22 R406, R407, 25 R448). -/
def State.gaccOwn (s : State) (id : Nat) : State :=
  match look s.reqs id with
  | none => s
  | some r => match r.k with
    | .gacc slot =>
      let again : Instr := .gaccArrival (.own id)
      if s.tagDead r.owner then ((s.dropReq id).fromPorts id).tagDrop (paStack r.pa) r.owner r.pa
      else if region r.pa = .remote then
        match s.hxd.portTo (peerOf r.pa) id with
        | some n => s.toPort n id
        | none => s.owe again
      else if region r.pa ≠ .ordinary then s.refuseGacc id r 0x901
      else if s.paHeld r.pa then s.owe again
      else
        let a := s.contribute (paStack r.pa) r.tag r.pa (s.contribOf r slot)
        match a.2 with
        | .refused d => a.1.refuseGacc id r d
        | .retry => (a.1.upReq id (fun r => { r with tc := s.tc })).owe (.gaccRetryResend id)
        | _ => a.1.dropReq id
    | _ => s

/-- The notice of a non-finite event that a peer's reply brings (22 R411): the token of the launch is cancelled, and NF is raised. -/
def State.ownNotice (s : State) (r : Req) (nf : Option Nat) : State :=
  match nf with
  | none => s
  | some h => (s.cancelToken (s.contribOf r 0).token.toNat).raise r.core r.rid (.nf (BitVec.ofNat 32 h)) none

/-- A peer's accumulate-write at its bucket engine (25 R448): the reply passes back through the aperture. -/
def State.gaccPeer (s : State) (again : Instr) (pkg launch core tag pa slot : Nat) (data : Vec) : State :=
  let reply (x : State × GReply) : State :=
    x.1.upHxd (fun h => { h with gaccReplies := h.gaccReplies ++ [(pkg, launch, core, slot, x.2.code)] })
  if region pa ≠ .ordinary then reply (s, .refused 0x901)
  else if s.paHeld pa then s.oweEach again
  else if s.tagDead tag then s.tagDrop (paStack pa) tag pa
  else reply (s.contribute (paStack pa) tag pa
    { slot := slot, data := data, core := 4096, rid := none, owner := tag, token := 0, peer := some (pkg, launch, core) })

/-- A peer's reply to our accumulate-write (22 R407, R409, 25 R447, R448), which was in custody until now. -/
def State.gaccReply (s : State) (id : Nat) (ans : GaccAnswer) (nf : Option Nat) : State :=
  match look s.reqs id with
  | none => s
  | some r =>
    if region r.pa ≠ .remote ∨ !(vals s.hxd.ports).any (fun p => p.custody.contains id) then s
    else match ans with
      | .refused d => (s.fromPorts id).refuseGacc id r d
      | .retry => ((s.fromPorts id).upReq id (fun r => { r with tc := s.tc })).owe (.gaccRetryResend id)
      | .accepted => ((s.fromPorts id).dropReq id).ownNotice r nf

/-- GACC_ARRIVAL (22 R407, 25 R448). -/
def execGaccArrival (m : GaccMsg) (s : State) : Host.Outcome State Fault Refusal :=
  .next (match m with
    | .own id => s.gaccOwn id
    | .peer pkg launch core tag pa slot data => s.gaccPeer (.gaccArrival m) pkg launch core tag pa slot data
    | .reply id ans nf => s.gaccReply id ans nf)

/-- GACC_RETRY_RESEND (22 R409): no sooner than 256 TC cycles after the RETRY. -/
def execGaccRetryResend (id : Nat) (s : State) : Host.Outcome State Fault Refusal :=
  .next (match look s.reqs id with
    | none => s
    | some r => if r.tc + 256 ≤ s.tc then s.owe (.gaccArrival (.own id)) else s.owe (.gaccRetryResend id))

/-- NF_NOTICE (22 R411): NF is raised on the context that sent the contribution; for one that is not on its core it is discarded. One from a
peer, whose reply has gone before, cancels the token of the contributing launch too (25 R448). -/
def execNfNotice (c : Nat) (m : NfMsg) (s : State) : Host.Outcome State Fault Refusal :=
  let n := m.handle / 2 ^ 32
  let rid := if n = 0 then (s.core c).rid else some (n - 1)
  let s := match m, rid.bind (look s.launches) with
    | .peer _, some l => s.cancelToken l.recd.token.toNat
    | _, _ => s
  .next (s.raise c rid (.nf (BitVec.ofNat 32 m.handle)) none)

/-- A bucket descriptor with physical pages yet to find (16 R330, 22 R414). -/
def parseBucket (bs : List Byte) : Bucket where
  ident := 0
  st := .open_
  tag := 0
  zero := false
  base := BitVec.ofNat 64 (bnat bs 0 8)
  count := bnat bs 8 4
  contrib := bnat bs 0x0C 2
  order := match bnat bs 0x0E 1 % 4 with | 0 => .slot | 1 => .tree | _ => .arrival
  fp32 := bit (bnat bs 0x0E 1) 4
  copyout := bit (bnat bs 0x0E 1) 5
  pages := []
  jcb := none
  action := BitVec.ofNat 64 (bnat bs 0x18 8)
  atag := bnat bs 0x20 2 % 4096
  ways := bnat bs 0x22 1 % 32
  nwin := bnat bs 0x23 1 % 32
  seed0 := BitVec.ofNat 32 (bnat bs 0x24 4)
  seed1 := BitVec.ofNat 32 (bnat bs 0x28 4)
  twtab := BitVec.ofNat 64 (bnat bs 0x30 8)
  argp := BitVec.ofNat 64 (bnat bs 0x38 8)
  windows := []
  chunks := []
  flags := 0
  shareFlags := 0
  failed := []
  sharesDone := []
  dups := 0
  retries := 0
  applied := 0

/-- A field of a descriptor is out of range (16 R330, 22 R414), for a core of a context. -/
def State.bucketFieldBad (s : State) (k : Core) (bs : List Byte) : Bool :=
  let b := parseBucket bs
  let jcb := bnat bs 0x10 8
  b.base.toNat % 128 != 0 || b.count == 0 || decide (1048576 < b.count) || b.contrib == 0 || bnat bs 0x0E 1 % 4 == 3
    || decide (16 < b.nwin) || (!b.copyout && (b.ways == 0 || decide (16 < b.ways)))
    || (jcb != 0 && (jcb % 64 != 0 || s.inTagged k jcb))
    || !(k.ctag == 0 || s.within b.atag k.ctag.toNat)

/-- What a translation of several addresses finds (16 R330). -/
inductive XMany where
  | ok (pas : List Nat)
  | miss (va : Nat)
  | page (va : Nat)
  | bad
  deriving DecidableEq, Repr

/-- Translate addresses as writes of a core, each with its tag. -/
def State.xlateMany (s : State) (e : Engine) : List (Nat × Nat) → XMany
  | [] => .ok []
  | (va, tag) :: rest => match s.xlate e (va % 2 ^ 64) tag .write with
    | .miss => .miss (va % 2 ^ 64)
    | .fault r => if r.resolvable then .page (va % 2 ^ 64) else .bad
    | .ok pa => match s.xlateMany e rest with
      | .ok ps => .ok (pa :: ps)
      | x => x

/-- Two buckets' sums share a byte (22 R404). -/
def Bucket.overlaps (a b : Bucket) : Bool :=
  (upFrom 0 (ceilDiv a.count 32)).any (fun u => (b.offsetOf (a.sumPa (32 * u))).isSome) ||
  (upFrom 0 (ceilDiv b.count 32)).any (fun u => (a.offsetOf (b.sumPa (32 * u))).isSome)

/-- The RBD takes a bucket, or refuses it with a reason (22 R404, R412, 16 R330). -/
def State.declareBucket (s : State) (k : Nat) (b : Bucket) : State × Nat :=
  let st := s.stack k
  let hit := st.buckets.filter (fun e => e.2.overlaps b)
  if hit.any (fun e => e.2.st == .open_ || e.2.st == .running) then (s, 0xFFFFFFFFFFFFFF02)
  else
    let gone := (hit.filter (fun e => e.2.tag == b.tag)).map Prod.fst
    let st := { st with buckets := st.buckets.filter (fun e => !gone.contains e.1) }
    match (upFrom 0 4096).find? (fun n => (look st.buckets n).isNone) with
    | none => (s, 0xFFFFFFFFFFFFFF01)
    | some n =>
      if storeSize < st.storeUsed + b.nchunks * b.chunkBytes then (s, 0xFFFFFFFFFFFFFF01)
      else ({ s.setStack k { st with buckets := put st.buckets n { b with ident := s.nextId } } with nextId := s.nextId + 1 }, bucketHandle k n)

/-- The descriptor of a BKDEF as its core reads it on path LS, its own stores still under way laid over the bytes at their homes (16 R330, 15
R296). -/
def State.descBytes (s : State) (r : Req) (ps : List PByte) : List Byte :=
  let q := { r with pend := (s.core r.core).seq, size := 64 }
  match s.xlate (engOf r.core) r.va.toNat r.tag .read with
  | .ok pa => ((s.ownStores q).foldl (s.overlay q pa) (bytesOf ps, [])).1
  | _ => bytesOf ps

/-- BKDEF_REQUEST (16 R330): the descriptor is read, the sums' pages and the JCB are translated, and the RBD answers. A page that is not
present freezes the core; one of the descriptor that stays so is PAGEF, and any other refuses the bucket. -/
def State.bkdefReq (s : State) (id : Nat) : State :=
  let again : Instr := .bkdefRequest id
  match look s.reqs id with
  | none => s
  | some r =>
    let c := r.core
    match s.ctxAt c r.rid with
    | .gone => s.dropReq id
    | .saved _ => s.owe again
    | .running =>
      let k := s.core c
      let answer (s : State) (v : Nat) : State := (s.dropReq id).answerStitch c id (BitVec.ofNat 64 v)
      if s.tagDead r.owner then s.dropReq id
      else if !r.done then answer s 0xFFFFFFFFFFFFFF04
      else if !k.await.isEmpty then s.owe again
      else match s.readVa (engOf c) id r.tag r.zero r.va.toNat 64 with
        | .miss a => (s.owe (.atsTranslationReply (engOf c) a)).owe again
        | .fault a rs =>
          if rs.resolvable ∧ s.pagesOut c < pageLimit then (s.sendPage c (engOf c) false (BitVec.ofNat 64 a)).owe again
          else if rs.resolvable then s.owe again
          else s.answerTrap id r (pagef rs (BitVec.ofNat 64 a))
        | .data ps =>
          let bs := s.descBytes r ps
          let b := parseBucket bs
          if s.vaHeld (engOf c) r.tag r.va.toNat 64 r.zero then s.owe again
          else if anyPoison ps then s.rewindCore c .poison ((s.firstPoison (engOf c) id r.tag r.zero r.va.toNat 64).getD 0)
          else if s.bucketFieldBad k bs then answer s 0xFFFFFFFFFFFFFF02
          else
            let w := s.resolve k b.base.toNat
            let first := b.base.toNat / 4096
            let last := (b.base.toNat + 4 * b.count - 1) / 4096
            let jcb := bnat bs 0x10 8
            let vas := (upFrom first (last - first + 1)).map (fun p => (4096 * p, w.1)) ++ (if jcb = 0 then [] else [(jcb, 0)])
            match s.xlateMany (engOf c) vas with
            | .miss a => (s.owe (.atsTranslationReply (engOf c) a)).owe again
            | .page a =>
              if s.pagesOut c < pageLimit then (s.sendPage c (engOf c) true (BitVec.ofNat 64 a)).owe again else s.owe again
            | .bad => answer s 0xFFFFFFFFFFFFFF04
            | .ok pas =>
              let pages := pas.take (last - first + 1)
              let st := paStack (pages.headD 0)
              if !pages.all (fun p => region p == .ordinary && paStack p == st) then answer s 0xFFFFFFFFFFFFFF03
              else if s.stackShut st then s.owe again
              else
                let q := s.declareBucket st { b with
                  tag := w.1, zero := w.2, pages := pages, jcb := (if jcb = 0 then none else pas.getLast?).bind jcbPlace }
                answer (q.1.recallVa (engOf c) r.tag r.va.toNat 64 r.zero (dieOf? c)) q.2

/-- BKDEF_REQUEST. -/
def execBkdefRequest (id : Nat) (s : State) : Host.Outcome State Fault Refusal := .next (s.bkdefReq id)

end Sys2Proof.Machine
end

