-- ==== Sys2Proof/Machine/Shares.lean ====
section
/-! DEFINITION. Shares.lean: completion actions of buckets: the shares of an NMV program (22 R415) and copy-outs (22 R416); pushes between
packages (22 R420, 25 R447, R448). -/

namespace Sys2Proof.Machine

/-- What an RBD does about a translation fault of a read or copy for a bucket (22 R415, R416): a page request, once for a page, or the
fault. -/
def State.rbdFault {α : Type} (s : State) (k b : Nat) (y : Bucket) (va : Nat) (w : Bool) (r : PReason) (again : Instr) : LcRd α :=
  let c := nmvCore k 0
  if !r.resolvable || y.failed.contains (va / 4096) then .bad va
  else if pageLimit ≤ s.pagesOut c then .wait (s.owe again)
  else if s.reqs.any (fun e => e.2.k == .page w (.rbd k) (.share k b) && e.2.va.toNat / 4096 == va / 4096) then .wait (s.owe again)
  else .wait ((s.addReq (s.pageReq c none 0 (.rbd k) w (.share k b) (BitVec.ofNat 64 va))).owe again)

/-- The RBD reads n bytes under tag 0, as R37 reads a launch (22 R415, R416). -/
def State.rbdRead (s : State) (k b : Nat) (y : Bucket) (va : Word) (n : Nat) (again : Instr) : LcRd (List Byte) :=
  match s.readVa (.rbd k) (s.nextId + b) 0 false va.toNat n with
  | .miss a => .wait ((s.owe (.atsTranslationReply (.rbd k) a)).owe again)
  | .fault a r => s.rbdFault k b y a false r again
  | .data ps =>
    if (pieces va.toNat n).any (fun p => match s.xlate (.rbd k) (p.1 % 2 ^ 64) 0 .read with
        | .ok pa => s.paHeld pa p.2
        | _ => false) then .wait (s.owe again)
    else if anyPoison ps then .bad va.toNat
    else .ok (bytesOf ps)

/-- The lowest-numbered free NMV core of a stack (22 R415). -/
def State.freeNmvCore (s : State) (k : Nat) : Option Nat :=
  ((upFrom 0 16).map (nmvCore k)).find? (fun c => (s.core c).share.isNone && (s.core c).phase == .idle)

/-- Limits on an NMV image beyond R38 (22 R415): header offsets of the fields outside them. -/
def nmvBad (h : List Byte) : List Nat :=
  (if attrNmv h then [] else [0x07]) ++ (if bnat h 0x0E 1 = 0 then [] else [0x0E]) ++ (if hdrNest h = 0 then [] else [0x0F])

/-- First element of share w (22 R415). -/
def Bucket.shareAt (b : Bucket) (w : Nat) : Nat := 32 * (w * ceilDiv b.count 32 / Nat.max b.ways 1)

/-- An NMV core at the start of a share, with its window table (22 R415): only the code table of its last share persists. -/
def shareCore (old : Core) (x : Code) (rid key k b w : Nat) (y : Bucket) (ws : List Window) (tc : Nat) : Core :=
  let v (n : Nat) : Word := BitVec.ofNat 64 n
  let k0 := { Core.reset with
    rid := some rid, share := some ⟨k, b, y.ident, w, y.ways, y.shareAt w, y.shareAt (w + 1), false, 0, ws⟩
    ctag := BitVec.ofNat 12 y.atag, code := key, strict := bit x.attr.toNat 1, nmv := true, defprof := x.defprof, prof := x.defprof
    seed0 := y.seed0, seed1 := y.seed1, phase := .run, pos := x.entry, lastIssue := tc
    ct := old.ct, ctValid := old.ctValid, ctFail := old.ctFail
    s := [(1, v (bucketHandle k b)), (2, v (y.shareAt w)), (3, v (y.shareAt (w + 1))), (4, y.argp), (5, v w), (6, v y.ways)] }
  k0.stitch

/-- A share's check fails (22 R415): a launch-fault record, and the bucket fails with reason 3. -/
def State.shareFault (s : State) (k b : Nat) (y : Bucket) (f : Nat × Nat) (at_ : Word) : State :=
  (s.emit false (.rbd k) { code := f.1, tag := y.tag, detail := f.2, addr := at_.toNat }).failBucket k b 3

/-- SHARE_START (22 R415): the share at the head of the queue starts on the lowest-numbered free NMV core, once its image and window
table are read and pass. -/
def State.shareStart (s : State) (k : Nat) : State :=
  let again : Instr := .shareStart k
  match (s.stack k).shares with
  | [] => s
  | (b, w) :: rest => match look (s.stack k).buckets b, s.freeNmvCore k with
    | none, _ => (s.upStack k (fun z => { z with shares := rest })).owe again
    | some _, none => s
    | some y, some c =>
      if y.st ≠ .running then (s.upStack k (fun z => { z with shares := rest })).owe again
      else if s.stackShut k then s.owe again
      else if s.tagDead y.atag then (s.failBucket k b 4).owe again
      else match s.rbdRead k b y y.action 256 again with
        | .wait s => s
        | .bad va => (s.shareFault k b y (0x0C, va % 2 ^ 32) y.action).owe again
        | .ok h =>
          let n := hdrLen h
          let img : LcRd (List Byte) := if 4194304 < n ∨ n ≤ 256 then .ok [] else s.rbdRead k b y (y.action + 256) (n - 256) again
          let wins : LcRd (List Byte) := if y.nwin = 0 then .ok [] else s.rbdRead k b y y.twtab (16 * y.nwin) again
          match (rdWait img).or (rdWait wins) with
          | some s => s
          | none =>
            let bs := h ++ (rdVal img).getD []
            let ws := parseWindows ((rdVal wins).getD []) y.nwin
            let layout := fault? 2 (least (nmvBad h ++ (match rdVal img with | some _ => layoutBad h bs | none => layoutBad h [])
              ++ (imageAt y.action).map Prod.snd))
            let s := (s.recallVa (.rbd k) 0 y.action.toNat n false none).recallVa (.rbd k) 0 y.twtab.toNat (16 * y.nwin) false none
            let image := (if magicOk h then [] else [(1, 0)]) ++ imageAt y.action ++ (match rdVal img with | some _ => imageFaults h bs | none => []) ++ layout
              ++ rdFault img
            let first : Faults := match lowest image with
              | some (2, _) => layout
              | some f => [f]
              | none => []
            match lowest first, lowest (rdFault wins ++ (match rdVal wins with | some _ => windowFaults ws | none => [])) with
            | some f, _ => (s.shareFault k b y f y.action).owe again
            | none, some f => (s.shareFault k b y f y.twtab).owe again
            | none, none =>
              let key := s.nextCode
              let rid := s.nextRid
              let x := mkCode h bs k
              let old := s.core c
              let s := { s with codes := put (if old.nmv then del s.codes old.code else s.codes) key x, nextCode := key + 1, nextRid := rid + 1 }
              let s := s.upStack k (fun z => { z with shares := rest })
              let s := (s.setCore c (shareCore old x rid key k b w y ws s.tc)).activate c
              if rest.isEmpty then s else s.owe again

/-- SHARE_START. -/
def execShareStart (k : Nat) (s : State) : Host.Outcome State Fault Refusal := .next (s.shareStart k)

/-- The final sums as bytes with their poison marks (22 R416). -/
def State.sumBytes (s : State) (b : Bucket) : List PByte :=
  (upFrom 0 b.count).flatMap (fun e =>
    let pa := b.sumPa e
    let bad := s.cellPoisoned b.tag pa 4 b.zero
    (s.cellRead b.tag pa 4 b.zero).map (fun x => (x, bad)))

/-- A piece of a copy-out: its address, length, and the tag and policy that the action's windows give it (03 R43). -/
def copyPieces (y : Bucket) (ws : List Window) : List (Nat × Nat × Nat × Bool) :=
  (pieces y.action.toNat (4 * y.count)).map (fun p => match (if y.atag = 0 then none else inWindow ws (p.1 % 2 ^ 64)) with
    | some w => (p.1, p.2, y.atag, w.zero)
    | none => (p.1, p.2, 0, false))

/-- The pieces that can be written, and what ends them early. -/
def State.copyReach (s : State) (k : Nat) : List (Nat × Nat × Nat × Bool) → List (Nat × Nat × Nat × Bool × Nat) × Option (Nat × Option PReason)
  | [] => ([], none)
  | (va, n, t, z) :: rest => match s.xlate (.rbd k) (va % 2 ^ 64) t .write with
    | .miss => ([], some (va % 2 ^ 64, none))
    | .fault r => ([], some (va % 2 ^ 64, some r))
    | .ok pa =>
      let r := s.copyReach k rest
      ((va, n, t, z, pa) :: r.1, r.2)

/-- Write the pieces of a copy-out: the state, or the fault of a granule without room. -/
def State.copyWrite (s : State) (y : Bucket) (bs : List PByte) : List (Nat × Nat × Nat × Bool × Nat) → State × Bool
  | [] => (s, true)
  | (va, n, t, z, pa) :: rest =>
    let b := (bs.drop (va - y.action.toNat)).take n
    match region pa with
    | .ordinary => match s.writePiece y.atag t pa z b with
      | .error _ => (s, false)
      | .ok u => ((if t = 0 then u.cameByWrite s pa n else u).recall pa n none).copyWrite y bs rest
    | .hxd => (s.regStoreP srcHost 0 b.length pa b).copyWrite y bs rest
    | _ => s.copyWrite y bs rest

/-- The pieces of a copy-out that translate are written (22 R416), once all of them can be: the bucket is then DONE, or FAILED where the copy
ended early, or a granule has no room, or poison is met (20 R379). -/
def State.copyMove (s : State) (k b : Nat) (y : Bucket) (ps : List (Nat × Nat × Nat × Bool × Nat)) (whole : Bool) (again : Instr) : State :=
  if ps.any (fun e => s.paHeld e.2.2.2.2 e.2.1 e.2.2.1 e.2.2.2.1 true) then s.owe again
  else match ps.findSome? (fun e => s.matPoison e.2.2.1 e.2.2.2.2 e.2.2.2.1) with
    | some pa => if y.atag = 0 then s.failBucket k b 5 else s.owe (.tagKill y.atag 1 pa)
    | none =>
      let r := s.copyWrite y (s.sumBytes y) ps
      if !r.2 ∨ !whole then r.1.failBucket k b 5
      else
        let s := r.1.upStack k (fun z => { z with copies := without z.copies b })
        let s := s.upBucket k b (fun y => { y with st := .done })
        s.jcbPost y.jcb (s.stackDie k) y.tag .completion y.flags

/-- COPY_OUT_COMPLETE (22 R416): the window table is read once and checked, and the sums are copied. Under an ATAG that is not LIVE the
copy's requests are dropped (03 R53), and it never completes (log 70). -/
def State.copyOut (s : State) (k b : Nat) : State :=
  let again : Instr := .copyOutComplete k b
  match look (s.stack k).buckets b with
  | none => s
  | some y =>
    if y.st ≠ .running ∨ !(s.stack k).copies.contains b then s
    else if s.stackShut k then s.owe again
    else
      let wins : LcRd (List Window) := if y.nwin = y.windows.length then .ok y.windows
        else match s.rbdRead k b y y.twtab (16 * y.nwin) again with
          | .ok t => .ok (parseWindows t y.nwin)
          | .wait s => .wait s
          | .bad va => .bad va
      match wins with
      | .wait s => s
      | .bad va => s.shareFault k b y (0x0C, va % 2 ^ 32) y.twtab
      | .ok ws =>
        let s := (s.recallVa (.rbd k) 0 y.twtab.toNat (16 * y.nwin) false none).upBucket k b (fun y => { y with windows := ws })
        match lowest (windowFaults ws) with
        | some f => s.shareFault k b y f y.twtab
        | none =>
          if s.tagDead y.atag then (s.upStack k (fun z => { z with copies := without z.copies b })).tagDrop k y.atag y.action.toNat
          else
            let p := s.copyReach k (copyPieces y ws)
            match p.2 with
            | some (va, none) => (s.owe (.atsTranslationReply (.rbd k) va)).owe again
            | some (va, some r) => match (s.rbdFault k b y va true r again : LcRd Unit) with
              | .wait s => s
              | _ => s.copyMove k b y p.1 false again
            | none => s.copyMove k b y p.1 true again

/-- COPY_OUT_COMPLETE. -/
def execCopyOutComplete (k b : Nat) (s : State) : Host.Outcome State Fault Refusal := .next (s.copyOut k b)

/-- A push of this package (22 R420): its bytes are read, and it leaves by a port; with none up on its route it is DIEFENCED. It is in
custody there until the peer reports it landed. -/
def State.pushOwn (s : State) (id : Nat) : State :=
  let again : Instr := .pushArrival (.own id)
  match look s.engs id with
  | none => s
  | some e => match e.k with
    | .push peer _ _ _ =>
      if e.page.isSome then s
      else if s.tagDead e.owner then (((s.dropPages e).engDone id).fromPorts id).tagDrop (nmvStack e.core) e.owner e.src.toNat
      else if e.prog ≠ 0 then
        match s.hxd.portTo peer id with
        | some n => s.toPort n id
        | none => s.owe again
      else match s.readVa e.engine id e.srcTag e.srcZero e.src.toNat e.stack with
        | .miss va => (s.owe (.atsTranslationReply e.engine va)).owe again
        | .fault va r => if r.resolvable then s.engPage id e va false r again else s.engFault id r.code
        | .data _ =>
          if s.vaHeld e.engine e.srcTag e.src.toNat e.stack e.srcZero ∨ s.unmatched e.core e.rid e.iss = true then s.owe again
          else
          let s := s.recallVa e.engine e.srcTag e.src.toNat e.stack e.srcZero none
          match s.hxd.portTo peer id with
          | none => s.engFault id 0x14
          | some n => ({ s with engs := put s.engs id { e with prog := 1 } }).toPort n id
    | _ => s

/-- Where the IOMMU leads a peer's write (25 R448, log 28): a place, the reason of a fault (11 R248), or nowhere yet, where the tables cannot be
read now. -/
def State.peerPlace (s : State) (tag va : Nat) : Except (Option Nat) Nat :=
  if !canonical va then .error (some PReason.noncanon.code)
  else match s.iommuWalk va, s.iommuLeaf va with
    | .held, _ => .error none
    | _, none => .error (some PReason.notpresent.code)
    | _, some x =>
      if !x.w then .error (some PReason.nowrite.code)
      else match leadsTo (x.pa + (va - x.va)) tag .write with
        | some r => .error (some r.code)
        | none => .ok (x.pa + (va - x.va))

/-- The pieces of a push from a peer: address, length, place. -/
def State.peerPlaces (s : State) (tag va n : Nat) : Except (Option Nat) (List (Nat × Nat × Nat)) :=
  (pieces va n).foldl (fun acc p => match acc, s.peerPlace tag (p.1 % 2 ^ 64) with
    | .ok l, .ok pa => .ok (l ++ [(p.1, p.2, pa)])
    | .error e, _ => .error e
    | _, .error e => .error e) (.ok [])

/-- Where the counter of a push lies, if it names one. -/
def State.peerCounter (s : State) (rcnt : Word) : Except (Option Nat) (Option Nat) :=
  if rcnt = 0 ∨ rcnt.toNat % 8 ≠ 0 then .ok none
  else match s.peerPlace 0 rcnt.toNat with
    | .ok pa => .ok (jcbPlace pa)
    | .error e => .error e

/-- Write the pieces of a push of a peer at their homes: the state, and the cause detail of what ended it early (13 R281). The register space
is no place for it (log 13). -/
def State.pushWrite (s : State) (rtag va : Nat) (data : List Byte) : List (Nat × Nat × Nat) → State × Option Nat
  | [] => (s, none)
  | p :: ps =>
    match region p.2.2 with
    | .ordinary => match s.writePiece rtag rtag p.2.2 false (((data.drop (p.1 - va)).take p.2.1).map (fun b => (b, false))) with
      | .error _ => (s, some 0x11)
      | .ok t => ((if rtag = 0 then t.cameByWrite s p.2.2 p.2.1 else t).recall p.2.2 p.2.1 none).pushWrite rtag va data ps
    | .hxd => (s, some PReason.unbacked.code)
    | _ => s.pushWrite rtag va data ps

/-- The answer to a push of a peer (25 R447): that it has landed, or why it has not. -/
def State.pushReply (s : State) (pkg ident : Nat) (why : Option Nat) : State :=
  s.upHxd (fun h => { h with pushReplies := h.pushReplies ++ [(pkg, ident, why)] })

/-- The bytes of a push land at their places, and its counter add follows (22 R420). -/
def State.pushLand (s : State) (pkg ident rtag : Nat) (va : Word) (data : List Byte) (ps : List (Nat × Nat × Nat)) (add : Option Nat)
    (radd : Word) : State :=
  let s := ps.foldl (fun s p => s.walked (p.1 % 2 ^ 64) true) s
  match s.pushWrite rtag va.toNat data ps with
  | (s, some cd) => s.pushReply pkg ident (some cd)
  | (s, none) =>
    let s := s.upHxd (fun h => { h with pushes := put h.pushes pkg (ident :: ((look h.pushes pkg).getD []).take 4095) })
    (match add with
    | some pa => s.arriveQuiet pa radd rtag
    | none => s).pushReply pkg ident none

/-- A push of a peer lands (22 R420, 25 R448): once for its identity, its bytes under RTAG, and its counter add once every byte has reached
its home. A repeated one is only answered. -/
def State.pushPeer (s : State) (again : Instr) (pkg ident rtag : Nat) (va : Word) (data : List Byte) (rcnt radd : Word) : State :=
  if ((look s.hxd.pushes pkg).getD []).contains ident then s.pushReply pkg ident none
  else match s.peerPlaces rtag va.toNat data.length, s.peerCounter rcnt with
    | .error none, _ | .ok _, .error none => s.oweEach again
    | .error (some cd), _ | .ok _, .error (some cd) => s.pushReply pkg ident (some cd)
    | .ok ps, .ok add =>
      if ps.any (fun p => s.paHeld p.2.2 p.2.1 rtag false true) || add.any (fun pa => s.paHeld pa 16) then s.oweEach again
      else if s.tagDead rtag then s.tagDrop (paStack ((ps.map (fun p => p.2.2)).headD 0)) rtag va.toNat
      else match ps.findSome? (fun p => s.matPoison rtag p.2.2 false) with
        | some pa => if rtag = 0 then s else s.owe (.tagKill rtag 1 pa)
        | none => s.pushLand pkg ident rtag va data ps add radd

/-- PUSH_ARRIVAL (22 R420, 25 R448): a push of this package leaves, the peer answers it, or one of a peer lands. -/
def execPushArrival (m : PushMsg) (s : State) : Host.Outcome State Fault Refusal :=
  .next (match m with
    | .own id => s.pushOwn id
    | .reply id fault =>
      if !(vals s.hxd.ports).any (fun p => p.custody.contains id) then s
      else match fault with
        | none => (s.fromPorts id).engDone id
        | some cd => (s.fromPorts id).engFault id cd
    | .peer pkg ident rtag va data rcnt radd => s.pushPeer (.pushArrival m) pkg ident rtag va data rcnt radd)

end Sys2Proof.Machine
end

