-- ==== Sys2Proof/Machine/Switch.lean ====
section
/-! DEFINITION. Switch.lean: switching contexts out and in: the save slots (18 R360 to R363), restart labels (R364), the mailbox and
restore (R365, R366), and the limits on a save and on a context that hangs (R367, R368). A slot's bytes stand in memory; what they say
of a context is kept beside them, and counts as long as CHECK is right (log 29). -/

namespace Sys2Proof.Machine

/-- The saved position, its POSKIND (18 R361, R362). -/
def Core.savePos (k : Core) : Nat × PosKind :=
  match k.phase with
  | .sleep _ => (k.lastPos, .wait)
  | _ => if k.op.isSome then (k.lastPos, .pend) else (k.pos, .next)

/-- The restart range that holds a position (18 R364): its LABEL. -/
def Code.restartAt (x : Code) (h : Nat) : Option Nat :=
  (x.restarts.find? (fun r => decide (r.1 ≤ h) && decide (h < r.2.1))).map (fun r => r.2.2)

/-- The context that resumes at a restart label (18 R364): accumulators, results in flight, pending waits and slots are gone. -/
def Core.restartTo (k : Core) (label : Nat) : Core :=
  { k with banks := [], mx := [], mxBase := none, pend := [], bpend := [], op := none, await := [], stitchOp := none, release := 0, phase := .run
           pos := label, stale := [0, 1, 2, 3, 4, 5, 6, 7], loopDue := false, stall := .none, waitCame := false
           exiting := false, pairBad := none }

/-- Words 16 to 116 of the trap frame's forms (18 R345, R362). -/
def Core.regWords (k : Core) : List Nat :=
  (upFrom 0 64).map (fun n => (k.sreg n).toNat) ++ (upFrom 0 16).map (fun n => (k.preg n).toNat) ++ [maskOf ((upFrom 0 8).map k.freg)]
  ++ ((k.loops.flatMap (fun l : LoopEnt => [l.ix.toNat + 2 ^ 32 * l.count.toNat, l.start + 2 ^ 32 * l.end_])) ++ List.replicate 12 0).take 12
  ++ (k.ras ++ List.replicate 8 0).take 8

/-- A sleeve's 128 bytes: its descriptor (13 R282), then HEAD, NEXT and the fault bit (layout log 29). -/
def Sleeve.bytes (x : Sleeve) : List Byte :=
  wordBytes [x.src.toNat, x.sstride.toNat, x.ring + 2 ^ 32 * x.rstride, x.rowlen + 2 ^ 32 * x.slots, x.total + 2 ^ 32 * x.first, 0, 0, 0, x.head, x.next, nb x.fault]

/-- The bytes of a save slot from 0x10 on, by offset (18 R362). -/
def State.slotImage (s : State) (c : Nat) (k : Core) (restart : Bool) : List (Nat × List Byte) :=
  let p := k.savePos
  let mxs := k.mxFrozen k.ic
  let rem (e : Pend) : Nat := e.due + 1 - k.ic
  let snaps : List (Nat × Pend) := sortRem ((k.pend.filter (fun e => !e.rq)).map (fun e => (rem e, e)))
  let rqs := k.pend.filter (fun e => e.rq)
  let v (n : Nat) : Vec := if k.dead.contains (codeV n) then Config.freeVec (s.freeIx n) else k.vreg n
  let promises := (s.engs.filter (fun e => e.2.core == c && e.2.rid == k.rid)).flatMap (fun e => [e.2.seqno + 2 ^ 32 * e.2.eng, e.2.promise])
  let pages := (s.reqs.filter (fun e => e.2.core == c && e.2.rid == k.rid && (match e.2.k with | .page _ _ _ => true | _ => false))).flatMap
    (fun e => [e.1 % 65536 + 2 ^ 32 * (match e.2.k with | .page true _ _ => 1 | _ => 0), e.2.va.toNat])
  [(0x10, wordBytes [p.1 + 2 ^ 20 * p.2.code + 2 ^ 22 * nb restart, k.sysMode.toNat, k.flags.toNat, k.seed0.toNat, k.seed1.toNat,
      2 ^ 16 * k.ev.toNat + k.mask.toNat, mxs.1 + 2 ^ 8 * mxs.2.1 + 2 ^ 16 * nb mxs.2.2, k.liveS,
      k.livePF + 2 ^ 32 * snaps.length + 2 ^ 40 * rqs.length + 2 ^ 48 * (rqFaulted rqs).length]),
   (0x100, wordBytes k.regWords),
   (0x600, (upFrom 0 8).flatMap (fun n => match look k.sleeves n with
      | some x => (x.bytes ++ List.replicate 40 0).take 128
      | none => List.replicate 128 0)),
   (0xA00, (wordBytes promises).take 1024),
   (0xE00, (wordBytes pages).take 512),
   (0x3000, (upFrom 0 8).flatMap (fun n => vecBytes (k.latch n))),
   (0x3400, (snaps.flatMap (fun e : Nat × Pend => (wordBytes (e.2.tagWord e.1 :: e.2.dataWords) ++ List.replicate 136 0).take 136)).take 5440),
   (0x5000, (rqs.flatMap (fun e : Pend => (wordBytes (e.tagWord (rem e) :: e.va.toNat :: e.dataWords) ++ List.replicate 144 0).take 144)).take 5760),
   (0x8000, k.spill.bytes 0 32768),
   (0x1_0000, (upFrom 0 2048).flatMap (fun n => vecBytes (v n)))]
  ++ (if restart then [] else [(0x5_0000, (upFrom 0 128).flatMap (fun b => wordBytes ((k.bank b).map BitVec.toNat)))])
  ++ [(0xF_FF00, wordBytes [maskOf ((upFrom 0 64).map k.alloc.contains), maskOf ((upFrom 64 64).map k.alloc.contains)])]

/-- Write a save slot: its reserved parts as zero (00 R4) and its bytes, then CHECK, then STATE (18 R362). At a restart label the banks are
not written (18 R364). -/
def State.fillSlot (s : State) (slot c : Nat) (k : Core) (restart : Bool) : State :=
  let s := (s.slotClear slot 0 0x5_0000).slotClear slot 0x9_0000 0x7_0000
  let s := (s.slotImage c k restart).foldl (fun (s : State) (e : Nat × List Byte) => s.slotWrite slot e.1 e.2) s
  (s.slotSeal slot).slotWrite slot 0 (toBytes 8 (1 + 2 ^ 8 * k.ctag.toNat + 2 ^ 32 * (s.tag k.ctag.toNat).gen.toNat))

/-- The context of a core is ready to be saved (18 R361 steps 2 and 3): every return-queue entry has its data or a recorded fault, and the
buffer is released. -/
def Core.saveReady (k : Core) : Bool :=
  k.release == 0 && k.pend.all (fun p => !p.rq || (match p.st with | .wait | .xlat => false | _ => true))

/-- Every context of a launch on a cluster is out (18 R363). -/
def State.clusterOut (s : State) (rid cl : Nat) : Bool := !(clusterCores cl).any (fun c => (s.core c).rid == some rid)

/-- A launch with nothing left to save has left the mesh: it stands at the head of its queue (05 R91, 18 R361), and slots that no save used
are free (18 R360). -/
def State.noteSaved (s : State) (rid : Nat) : State :=
  match look s.launches rid with
  | none => s
  | some l =>
    if l.state ≠ .preempting then s
    else
      let ready := l.clusters.filter (s.clusterOut rid)
      if !(l.leads.all (fun c => (s.core c).rid != some rid)) ∨ !l.clusters.isEmpty then s.oweAll (ready.map (Instr.clusterSave rid))
      else
        let kept := l.slots.filter (fun e => decide (4096 ≤ e.1) || (look s.saved e.2).isSome)
        let idle := (l.slots.map Prod.snd).filter (fun n => !(kept.map Prod.snd).contains n)
        let s := { s with launches := s.launches.map (fun e : Nat × Launch => (e.1, { e.2 with order := e.2.order + 1 })) }
        let s := s.upHxd (fun h => { h with order := h.order + 1, slotsUsed := h.slotsUsed.filter (fun n => !idle.contains n) })
        ((s.setLaunch rid { l with slots := kept, state := .switchedOut, onMesh := false, resume := true, order := 0, qtc := s.tc }).owe .placementPass)

/-- The slot that a context is saved into (18 R360): reserved for it, or for a YIELD alone (18 R353) the lowest free one. -/
def State.slotOf (s : State) (rid lidx : Nat) : Option Nat :=
  match look s.launches rid with
  | none => none
  | some l => match look l.slots lidx with
    | some n => some n
    | none => s.hxd.slotsFree.head?

/-- SWITCH_OUT (18 R361, R362, R364): the context is saved, and its LC is told. A context that yields with no slot in the pool runs on
(log 30). -/
def State.switchOut (s : State) (c : Nat) : State :=
  let k := s.core c
  match k.out, k.rid with
  | .saving _, some rid =>
    if !k.saveReady ∨ k.phase = .ended then s
    else match s.slotOf rid k.lidx with
      | none => s.upCore c (fun k => { k with out := .no })
      | some slot =>
        if s.paHeld (s.slotPa slot) then s else
        let k := { k.settleMx with out := .no, lastIssue := s.tc - k.lastIssue, mailbox := ⟨0, false, []⟩, cbuf := [], stall := .none }
        let label : Option Nat := if k.running.isNone then none else (look s.codes k.code).bind (fun x : Code => x.restartAt k.savePos.1)
        let s := s.fillSlot slot c k label.isSome
        let k := match label with | some h => k.restartTo h | none => k
        let s := s.upHxd (fun h => { h with slotsUsed := addNew h.slotsUsed slot })
        let s := s.upLaunch rid (fun l => { l with slots := put l.slots k.lidx slot })
        let s := (({ s with saved := put s.saved slot ⟨c, k, false⟩ } : State).dropFollower c |>.setCore c Core.reset).deactivate c
        match look s.launches rid with
        | some l => match l.state with
          | .preempting => s.noteSaved rid
          | .placed => s.owe (.contextRestore rid)
          | _ => s
        | none => s
  | _, _ => s

/-- SWITCH_OUT. -/
def execSwitchOut (c : Nat) (s : State) : Host.Outcome State Fault Refusal := .next (s.switchOut c)

/-- The code of a slice's mode in SLICEINIT's form (02 R30). -/
def modeCode : SliceMode → Nat
  | .cache => 1 | .scratch => 2 | .fifo => 3

/-- The mode of a code. -/
def codeMode (n : Nat) : SliceMode := if n = 2 then .scratch else if n = 3 then .fifo else .cache

/-- A cluster's header: modes, FIFO counts, tag (18 R363; the places of the tag and the CRC are the model's, log 29). -/
def Cluster.headerWords (k : Cluster) (tag : Nat) : List Nat :=
  ((upFrom 0 32).map (fun n => 4 ^ n * modeCode (k.slice n).mode)).sum
    :: (upFrom 0 32).map (fun n => (k.slice n).fifo.length) ++ [tag]

/-- Mark the owner of a 128-byte unit of a slot (03 R54). -/
def State.slotOwner (s : State) (pa owner : Nat) : State :=
  if owner = 0 then s else s.upStack (paStack pa) (fun k => { k with owner := put k.owner (pa / 128) owner })

/-- Save a slice: its bytes, or its entries oldest first, with their poison marks (18 R363) and owner tags (03 R54). -/
def State.saveSlice (s : State) (cl n slot : Nat) : State :=
  let k := s.cluster cl
  let x := k.slice n
  let bytes := if x.mode = .fifo then x.fifo.flatMap (fun e => vecBytes e.data) else k.mem.bytes (786432 * n) 786432
  let bad := if x.mode = .fifo then ((x.fifo.zipIdx).filter (fun e => e.1.poison)).map Prod.snd
    else (k.poison.filter (fun u => sliceOf (128 * u) == n)).map (fun u => u - 6144 * n)
  let own : List (Nat × Nat) := if x.mode = .fifo then (x.fifo.zipIdx).map (fun e => (e.2, e.1.owner))
    else (k.owner.filter (fun e => sliceOf (128 * e.1) == n)).map (fun e => (e.1 - 6144 * n, e.2))
  let s := bad.foldl (fun s u => s.poisonUnit 0 (s.slotPa slot + 128 * u)) (s.slotWrite slot 0 bytes)
  own.foldl (fun s e => s.slotOwner (s.slotPa slot + 128 * e.1) e.2) s

/-- Restore a slice (18 R363). -/
def State.loadSlice (s : State) (cl n slot : Nat) (mode : SliceMode) (count : Nat) : State :=
  let pa := s.slotPa slot
  let bad (u : Nat) : Bool := s.cellPoisoned 0 (pa + 128 * u) 1 false
  let own (u : Nat) : Nat := (look (s.stack (paStack pa)).owner (pa / 128 + u)).getD 0
  let k := s.cluster cl
  match mode with
  | .fifo => s.setCluster cl { k with slices := put k.slices n ⟨.fifo, (upFrom 0 count).map (fun i =>
      ⟨bytesVec (s.mem.bytes (pa + 128 * i) 128), bad i, s.tc, 0, own i⟩)⟩ }
  | .scratch =>
    let s := s.scratchWrite cl 0 (786432 * n) (s.mem.bytes pa 786432)
    let k := s.cluster cl
    s.setCluster cl { k with
      poison := ((upFrom 0 6144).filter bad).foldl (fun p u => addNew p (6144 * n + u)) k.poison
      owner := (upFrom 0 6144).foldl (fun o u => if own u = 0 then o else put o (6144 * n + u) (own u)) k.owner }
  | .cache => s

/-- Slots kept for a cluster of a launch: the header's, and by slice. -/
def Launch.clusterSlots (l : Launch) (cl : Nat) : List (Nat × Nat) :=
  (l.slots.filter (fun e => e.1 / 64 == 64 + cl)).map (fun e => (e.1 % 64, e.2))

/-- The slot of an abandoned save is marked empty (18 R368), by a write that is held as any other while its stack is shut (12 R258). -/
def State.emptySlot (s : State) (slot : Nat) : State :=
  let pa := s.slotPa slot
  if s.paHeld pa 8 then
    (s.addReq { Core.reset.blankReq outsideCore 0 with k := .store false, pa := pa, size := 8, tc := s.tc }).oweEach
      (.globalWriteRequest (.core s.nextId))
  else s.slotWrite slot 0 (toBytes 8 0)

/-- A save that is abandoned (18 R368): the slot is empty, the tag is killed or under tag 0 the launch fails, a WATCHDOG record goes out, and
the core is reset. -/
def State.abandonSave (s : State) (c : Nat) (k : Core) (slot : Option Nat) : State :=
  let s := match slot with | some n => s.emptySlot n | none => s
  let s := s.emit true (.core c) { code := Cause.watchdog.code, tag := k.ctag.toNat, detail := 4 }
  let s := if (s.core c).rid = k.rid then ((s.dropFollower c).setCore c Core.reset).deactivate c else s
  match k.rid with
  | none => s
  | some rid => if k.ctag ≠ 0 then (s.owe (.tagKill k.ctag.toNat 11 0)).noteSaved rid else (s.noteSaved rid).failLaunch rid

/-- Requests of a launch whose destination lies in the scratch of a cluster (18 R363). -/
def State.fillsCluster (s : State) (rid cl : Nat) : Bool :=
  s.engs.any (fun e => e.2.rid == some rid && !isNmv e.2.core && coreCluster e.2.core == cl && (match e.2.k with
    | .fill _ _ _ | .gather _ _ => true
    | .copy _ _ _ _ _ | .copys => isScratchForm e.2.dst
    | .push _ _ _ _ => false))

/-- A slot of a list cannot be reached now (12 R258). -/
def State.slotsHeld (s : State) (slots : List Nat) : Bool := slots.any (fun n => s.paHeld (s.slotPa n))

/-- CRC-32 over a cluster's header slot but for the CRC itself, at 272 (18 R363, log 29). -/
def State.headerCrc (s : State) (slot : Nat) : Nat :=
  (crc32 (s.mem.bytes (s.slotPa slot) 272 ++ s.mem.bytes (s.slotPa slot + 280) (2 ^ 20 - 280))).toNat

/-- Every context of a launch meets the fate of an abandoned save (18 R363, R368): those in their slots, and those still on their cores. -/
def State.abandonAll (s : State) (rid : Nat) (l : Launch) : State :=
  let on := l.leads.filter (fun c => (s.core c).rid == some rid && (s.core c).phase != .ended)
  let s := (s.saved.filter (fun e => e.2.k.rid == some rid)).foldl (fun s e => s.abandonSave e.2.core e.2.k (some e.1)) s
  on.foldl (fun s c => s.abandonSave c (s.core c) (s.slotOf rid (s.core c).lidx)) s

/-- CLUSTER_SAVE (18 R363): once the copies, fills and gathers into its scratch are over, the header and the slices are saved. A save that
takes longer than LP_WDSAVE from the request is abandoned with every context of the launch. -/
def State.clusterSave (s : State) (rid cl : Nat) : State :=
  match look s.launches rid with
  | none => s
  | some l =>
    if l.state ≠ .preempting ∨ !l.clusters.contains cl ∨ !s.clusterOut rid cl then s
    else if s.fillsCluster rid cl || s.slotsHeld ((l.clusterSlots cl).map Prod.snd) then
      if l.outTc + (s.die (clusterDie cl)).wdsave.toNat ≤ s.tc then
        let gone := (l.slots.filter (fun e => decide (4096 ≤ e.1))).map Prod.snd
        let s := s.upHxd (fun h => { h with slotsUsed := h.slotsUsed.filter (fun n => !gone.contains n) })
        let s := s.setLaunch rid { l with clusters := [], slots := l.slots.filter (fun e => decide (e.1 < 4096)) }
        s.abandonAll rid l
      else s.owe (.clusterSave rid cl)
    else
      let k := s.cluster cl
      let slots := l.clusterSlots cl
      let s := match look slots 0 with
        | none => s
        | some h =>
          let w := k.headerWords l.recd.tag.toNat
          let s := (s.slotClear h 0 (2 ^ 20)).slotWrite h 0 (wordBytes w)
          s.slotWrite h 272 (toBytes 8 (s.headerCrc h))
      let s := slots.foldl (fun s e => if e.1 = 0 then s else s.saveSlice cl (e.1 - 1) e.2) s
      (s.setLaunch rid { l with clusters := without l.clusters cl }).noteSaved rid

/-- CLUSTER_SAVE. -/
def execClusterSave (rid cluster : Nat) (s : State) : Host.Outcome State Fault Refusal := .next (s.clusterSave rid cluster)

/-- The slices of a saved cluster that change their mode at its restore are quiet (11 R242 step 1, 18 R363). -/
def State.clusterQuiet (s : State) (l : Launch) (cl : Nat) : Bool :=
  match look (l.clusterSlots cl) 0 with
  | none => true
  | some h => (upFrom 0 32).all (fun n => ((s.cluster cl).slice n).mode == codeMode (fld (s.mem.nat (s.slotPa h) 8) (2 * n) 2)
      || s.sliceQuiet cl n s.nextId (s.tc + 1))

/-- A cluster is restored (18 R363): every slice leaves its mode and takes its saved one, with its contents. The second part says whether
the header's CRC was right. -/
def State.clusterBack (s : State) (l : Launch) (cl : Nat) : State × Bool :=
  match look (l.clusterSlots cl) 0 with
  | none => (s, true)
  | some h =>
    let w := (upFrom 0 34).map (fun i => s.mem.nat (s.slotPa h + 8 * i) 8)
    if s.mem.nat (s.slotPa h + 272) 8 ≠ s.headerCrc h then (s, false)
    else
      let mode (n : Nat) : SliceMode   := codeMode (fld (w.headD 0) (2 * n) 2)
      let s := [SliceMode.cache, .scratch, .fifo].foldl (fun s m => s.switchSlices cl ((upFrom 0 32).filter (fun n => mode n == m)) m) s
      (((l.clusterSlots cl).filter (fun e => e.1 != 0)).foldl (fun s e =>
        s.loadSlice cl (e.1 - 1) e.2 (mode (e.1 - 1)) (w.getD e.1 0)) s, true)

/-- The mailbox's kinds 3 and 4 become pending causes (18 R366 step 5), in entry order. -/
def mailCauses (ents : List (Nat × Word)) : List PCause :=
  ents.filterMap (fun e => if e.1 = 3 then some (.promise (e.2.toNat % 4096) (e.2.setWidth 32))
    else if e.1 = 4 then some (.overarr (e.2.setWidth 32)) else none)

/-- A context as it comes back to its core (18 R366 steps 1 and 5): page requests with a reply are resolved, and an access or a load whose
reply was lost is tried again. -/
def Core.comeBack (k : Core) (reqs : Tbl Req) (tc : Nat) : Core :=
  let k := if k.mon.isNone then k.unsettle else k
  { k with ev := k.ev ||| k.mailbox.ev, causes := k.causes ++ mailCauses k.mailbox.ents, mailbox := ⟨0, false, []⟩
           await := k.await.filter (fun id => (look reqs id).isSome), lastIssue := tc - k.lastIssue, cbuf := [], out := .no
           pend := k.pend.map (fun p => match p.st with
             | .page id => if (look reqs id).isSome then p else { p with st := .wait }
             | _ => p) }

/-- A page request of a context has a new number. -/
def Core.renumber (k : Core) (id new : Nat) : Core :=
  let other (n : Nat) : Nat := if n = id then new else n
  { k with
    await := k.await.map other
    pend := k.pend.map (fun p => { p with st := match p.st with | .page n => .page (other n) | st => st }) }

/-- A page request of the context on core c that has no reply yet is sent again, under a new number (18 R366 step 4). -/
def State.sendAgain (s : State) (c id : Nat) (r : Req) : State :=
  ((s.dropReq id).addReq { r with tc := s.tc }).upCore c (fun k => k.renumber id s.nextId)

/-- Every page request of the context of core c that is outstanding is sent again, and its loads go on (18 R366). -/
def State.renew (s : State) (c : Nat) : State :=
  s.reqs.foldl (fun s e =>
    if e.2.core ≠ c ∨ e.2.rid ≠ (s.core c).rid then s
    else match e.2.k with
      | .page _ _ _ => s.sendAgain c e.1 e.2
      | .load _ => if e.2.done then s else s.owe (.globalReadRequest (.core e.1))
      | _ => s) s

/-- The virtual address of a page request by its number, as the slot lists it (18 R362). -/
def State.slotPage (s : State) (slot id : Nat) : Nat :=
  (((upFrom 0 32).find? (fun i => s.mem.nat (s.slotPa slot + 0xE00 + 16 * i) 4 == id)).map
    (fun i => s.mem.nat (s.slotPa slot + 0xE08 + 16 * i) 8)).getD 0

/-- Whether a page request was for a write, as the slot lists it (18 R362). -/
def State.slotWrites (s : State) (slot id : Nat) : Bool :=
  (upFrom 0 32).any (fun i => s.mem.nat (s.slotPa slot + 0xE00 + 16 * i) 4 == id && s.mem.nat (s.slotPa slot + 0xE04 + 16 * i) 4 == 1)

/-- Page requests that a saved context waits for, whose replies have come. -/
def State.replied (s : State) (k : Core) : List Nat :=
  (k.await ++ k.pend.filterMap (fun p => match p.st with | .page id => some id | _ => none)).filter (fun id => (look s.reqs id).isNone)

/-- With OVFL set a reply may be lost: every page request that the slot lists as outstanding is sent again, those too whose replies have come
(18 R366 step 4). -/
def State.sendLost (s : State) (slot : Nat) (x : Saved) : State × Core :=
  if !x.k.mailbox.ovfl then (s, x.k)
  else (s.replied x.k).foldl (fun (a : State × Core) id =>
    let s := a.1
    let k := a.2
    let why : PageFor := match k.pend.find? (fun p => p.st == .page id) with
      | some p => match s.reqs.find? (fun e => e.2.core == x.core && e.2.rid == k.rid && e.2.pend == p.seq && e.2.k.acc == .read) with
        | some e => .load e.1
        | none => .core
      | none => .core
    let n := id % 65536
    (s.addReq (s.pageReq x.core k.rid k.ctag.toNat (engOf x.core) (s.slotWrites slot n) why (BitVec.ofNat 64 (s.slotPage slot n))),
      k.renumber id s.nextId)) (s, x.k)

/-- Restore one saved context (18 R366): CHECK, the mailbox, and the resumption by its POSKIND. The slot is free again, and a launch may wait
for it (05 R102). -/
def State.bringBack (s : State) (slot : Nat) (x : Saved) : State :=
  let ok := s.slotOk slot && s.mem.nat (s.slotPa slot) 1 == 1
  let m := x.k.mailbox
  let lost := s.sendLost slot x
  let s := lost.1
  let k := lost.2.comeBack s.reqs s.tc
  let failed := (m.ents.find? (fun e => e.1 == 2 && !bit e.2.toNat 16)).map (fun e => s.slotPage slot (e.2.toNat % 65536))
  let s := ((({ s with saved := del s.saved slot } : State).setCore x.core k).activate x.core).renew x.core
  let s := s.slotWrite slot 0 (toBytes 8 0)
  let s := (s.upHxd (fun h => { h with slotsUsed := without h.slotsUsed slot })).owe .placementPass
  let s := match k.rid with
    | some rid => s.upLaunch rid (fun l => { l with slots := l.slots.filter (fun e => e.2 != slot) })
    | none => s
  if !ok then s.endFatal x.core ⟨.poison, 0, 0⟩ false false
  else match failed with
  | some va => s.endFatal x.core (pagef .respfail (BitVec.ofNat 64 va)) false false
  | none =>
    let s := s.mirrorNow x.core
    match m.ents.find? (fun e => e.1 == 5 || e.1 == 6), k.op with
    | some e, some (.answer id _) => s.answerStitch x.core id (if e.1 = 5 then e.2 else 0)
    | _, _ => s

/-- CONTEXT_RESTORE (18 R363, R366): a launch placed again has its clusters and then its contexts restored; a context that yielded alone comes
back by itself. -/
def State.contextRestore (s : State) (rid : Nat) : State :=
  match look s.launches rid with
  | none => s
  | some l =>
    let mine := s.saved.filter (fun e => e.2.k.rid == some rid)
    let held := s.slotsHeld (mine.map Prod.fst ++ l.slots.map Prod.snd)
    match l.state with
    | .placed => if held then s.owe (.contextRestore rid) else mine.foldl (fun s e => s.bringBack e.1 e.2) s
    | .placing =>
      if !l.resume then s
      else if held ∨ !l.wholeClusters.all (s.clusterQuiet l) then s.owe (.contextRestore rid)
      else
        let s := s.setLaunch rid { l with state := .placed, resume := false }
        let a := l.wholeClusters.foldl (fun (acc : State × Bool) cl =>
          let r := acc.1.clusterBack l cl
          (r.1, acc.2 && r.2)) (s, true)
        let s := a.1.upHxd (fun h => { h with slotsUsed := h.slotsUsed.filter (fun n =>
          !((l.slots.filter (fun e => decide (4096 ≤ e.1))).map Prod.snd).contains n) })
        let s := (s.owe .placementPass).upLaunch rid (fun l => { l with slots := l.slots.filter (fun e => decide (e.1 < 4096)) })
        let s := mine.foldl (fun s e => s.bringBack e.1 e.2) s
        let s := if a.2 then s else mine.foldl (fun s e =>
          if (s.core e.2.core).rid = some rid then s.endFatal e.2.core ⟨.poison, 0, 0⟩ false false else s) s
        let s := s.reissueLost rid
        let s := if l.leads.any (fun c => (s.core c).rid == some rid) then s
          else match look s.launches rid with
            | some l => l.dies.foldl (fun s d => s.prepareDie rid l d) s
            | none => s
        (if l.nfin = l.points then s.owe (.launchComplete rid) else s).evictNow rid
    | _ => s

/-- CONTEXT_RESTORE. -/
def execContextRestore (rid : Nat) (s : State) : Host.Outcome State Fault Refusal := .next (s.contextRestore rid)

/-- SAVE_TIMEOUT (18 R368). -/
def State.saveTimeout (s : State) (c : Nat) : State :=
  let k := s.core c
  match k.out with
  | .requested t | .saving t =>
    if s.tc < t + (s.die (coreDie c)).wdsave.toNat ∨ k.phase = .ended then s
    else s.abandonSave c k (k.rid.bind (fun r => s.slotOf r k.lidx))
  | .no => s

/-- SAVE_TIMEOUT. -/
def execSaveTimeout (c : Nat) (s : State) : Host.Outcome State Fault Refusal := .next (s.saveTimeout c)

/-- What a hung context was doing (18 R367): 0 stalled, 1 asleep, as one that waits for a task (07 R134) or drains (20 R380) is, 2 frozen,
3 in the monitor. -/
def Core.hangKind (k : Core) : Nat :=
  if k.mon.isSome then 3
  else if !k.unfrozen then 2
  else match k.phase with
    | .sleep _ | .table => 1
    | .drain _ => if k.op.isNone && k.release == 0 && k.stall == .none then 1 else 0
    | _ => 0

/-- HANG_TIMEOUT (18 R367): an engaged context that has issued no kernel bundle for LP_WDLIMIT TC cycles ends fatally. -/
def State.hangTimeout (s : State) (c : Nat) : State :=
  let k := s.core c
  let lim := (s.die (if isNmv c then s.stackDie (nmvStack c) else coreDie c)).wdlimit.toNat
  let engaged : Bool := match k.phase with
    | .idle | .ended => false
    | .table => !k.tasks.isEmpty
    | _ => true
  if lim = 0 ∨ engaged = false ∨ s.tc < k.lastIssue + lim then s
  else s.endFatal c ⟨.watchdog, BitVec.ofNat 32 k.hangKind, 0⟩ false false

/-- HANG_TIMEOUT. -/
def execHangTimeout (c : Nat) (s : State) : Host.Outcome State Fault Refusal := .next (s.hangTimeout c)

/-- MONITOR_FREEZE (18 R341, R349, R358): the cause that a boundary takes is taken now. -/
def State.freezeNow (s : State) (c : Nat) : State :=
  let k := s.core c
  let at_ : Bool := match k.phase with
    | .run | .sleep _ => k.op.isNone && k.release == 0 && k.await.isEmpty && k.duePoison.isNone
    | _ => false
  if !at_ then s
  else
    let s := s.settleLoop c
    (s.boundary c false).getD s

/-- MONITOR_FREEZE. -/
def execMonitorFreeze (c : Nat) (s : State) : Host.Outcome State Fault Refusal := .next (s.freezeNow c)

/-- REWIND (20 R384): poison due at this boundary is consumed, or the cores of a pair disagree. -/
def execRewind (c : Nat) (pairMismatch : Bool) (s : State) : Host.Outcome State Fault Refusal :=
  let k := s.core c
  .next (if k.phase = .ended ∨ k.phase = .idle then s
    else if pairMismatch then (if k.paired then s.rewindCore c .pairmism 0 else s)
    else match k.duePoison with
      | some pa => s.rewindCore c .poison pa
      | none => s)

end Sys2Proof.Machine
end

