-- ==== Sys2Proof/Machine/Records.lean ====
section
/-! DEFINITION. Records.lean: the trap-record rings and their messages (18 R355 to R357, 25 R442, R443) and the installation of a monitor
(18 R348). -/

namespace Sys2Proof.Machine

/-- A lane's ring is set up once its CTL holds a size from 7 to 20 (18 R356). -/
def Ring.setUp (r : Ring) : Bool := decide (7 ≤ fld r.ctl.toNat 0 5) && decide (fld r.ctl.toNat 0 5 ≤ 20)

/-- Records that a ring holds (18 R356). -/
def Ring.size (r : Ring) : Nat := 2 ^ fld r.ctl.toNat 0 5

/-- A lane is full when its HEAD minus its DONE equals its size, and until it is set up (18 R356). -/
def Ring.full (r : Ring) : Bool := !r.setUp || (r.head - r.done).toNat == r.size

/-- Where the next record of a lane lands (18 R356). -/
def Ring.slotPa (r : Ring) : Nat := r.base.toNat + 32 * (r.head.toNat % r.size)

/-- The bytes of a record (18 R355). -/
def TRec.bytes (r : TRec) : List Byte := wordBytes [r.w0.toNat, r.w1.toNat, r.addr.toNat, r.tc.toNat]

/-- One lane of the HXD. -/
def Hxd.lane (h : Hxd) (laneH : Bool) : Ring := if laneH then h.laneH else h.laneN

/-- Change a lane. -/
def State.upLane (s : State) (laneH : Bool) (f : Ring → Ring) : State :=
  s.upHxd (fun h => if laneH then { h with laneH := f h.laneH } else { h with laneN := f h.laneN })

/-- A write by the HXD at a physical address: what lies outside ordinary memory is not of this machine. -/
def State.hxdWrite (s : State) (pa : Nat) (bs : List Byte) : State :=
  if region pa = .ordinary then (s.recall pa bs.length none).memWrite 0 pa bs else s

/-- Key of a lane's IQ_HCTL or IQ_NCTL (25 R442). -/
def iqCtl (laneH : Bool) : Nat := regKey 12 (if laneH then 0x08 else 0x18)

/-- IQ_HADDR or IQ_NADDR (25 R442). -/
def Hxd.iqAddr (h : Hxd) (laneH : Bool) : Nat := ((look h.regs (regKey 12 (if laneH then 0x00 else 0x10))).getD 0).toNat

/-- A message of a lane (25 R442, R443): with EN set and PEND clear, one 32-bit write of the identity, and PEND is set. In endpoint use the
message is an MSI-X vector of the function: 0 for Lane H, 1 for Lane N. -/
def State.message (s : State) (laneH : Bool) : State :=
  let w := (look s.hxd.regs (iqCtl laneH)).getD 0
  if bit w.toNat 31 && !bit w.toNat 32 then
    let sent := if s.mgmt.endpoint then (none, nb (!laneH)) else (some (s.hxd.iqAddr laneH), w.toNat % 2048)
    let s := s.upHxd (fun h => { h with regs := put h.regs (iqCtl laneH) (w ||| 0x1_0000_0000), messages := sent :: h.messages })
    if s.mgmt.endpoint then s else s.hxdWrite (s.hxd.iqAddr laneH) (toBytes 4 (w.toNat % 2048))
  else s

/-- TRAP_RECORD_WRITE (18 R356): the oldest record that waits is written, with its message after it; a full lane holds its records; Lane N
waits for Lane H. -/
def execTrapRecordWrite (laneH : Bool) (s : State) : Host.Outcome State Fault Refusal :=
  let r := s.hxd.lane laneH
  .next (match r.waiting with
    | [] => s
    | x :: rest =>
      if r.full then s
      else if !laneH && !s.hxd.laneH.waiting.isEmpty && !s.hxd.laneH.full then s.owe (.trapRecordWrite laneH)
      else if s.paHeld r.slotPa then s.owe (.trapRecordWrite laneH)
      else
        let s := (s.hxdWrite r.slotPa x.bytes).upLane laneH (fun r => { r with head := r.head + 1, waiting := rest })
        let s := s.message laneH
        if rest.isEmpty then s else s.owe (.trapRecordWrite laneH))

/-- Records that wait may be written now. -/
def State.serveLane (s : State) (laneH : Bool) : State :=
  if (s.hxd.lane laneH).waiting.isEmpty then s else s.owe (.trapRecordWrite laneH)

/-- TR_DONE_WRITE (18 R356, 25 R443): DONE is written, PEND cleared, and a message goes at once if records stand unread. -/
def execTrDoneWrite (laneH : Bool) (v : Word) (s : State) : Host.Outcome State Fault Refusal :=
  let s := s.upLane laneH (fun r => { r with done := v.setWidth 32 })
  let s := s.upHxd (fun h => match look h.regs (iqCtl laneH) with
    | some w => { h with regs := put h.regs (iqCtl laneH) (w &&& 0xFFFF_FFFE_FFFF_FFFF) }
    | none => h)
  let r := s.hxd.lane laneH
  let s := if r.head ≠ r.done then s.message laneH else s
  .next (s.serveLane laneH)

/-- TR_CTL_WRITE (18 R356): the next record written obeys the new size; records held since before the ring was set up follow. -/
def execTrCtlWrite (laneH : Bool) (v : Word) (s : State) : Host.Outcome State Fault Refusal :=
  .next ((s.upLane laneH (fun r => { r with ctl := v &&& 31 })).serveLane laneH)

/-- A BR slot that a monitor image may hold (18 R348). -/
def monitorBranch : Instr → Bool
  | .j _ | .jf _ _ _ | .jp _ _ _ | .call _ | .ret | .loopImm _ _ | .loopReg _ _ | .lexit _ _ | .rett | .halt => true
  | _ => false

/-- A bundle keeps the limits of a monitor image on its slots (18 R348). -/
def monitorBundle (b : BundleBits) : Bool :=
  (upFrom 3 5).all (fun n => !present b n) && (!present b 0 || ((decSlot b 0).map monitorBranch).getD false)

/-- The header fields outside a monitor image's limits (18 R348). -/
def monitorHeader (h : List Byte) : List Nat :=
  (if attrNmv h then [0x07] else []) ++ (if 256 < hdrPats h then [0x0C] else []) ++ (if bnat h 0x0E 1 ≠ 0 then [0x0E] else [])
  ++ (if hdrNest h ≠ 0 then [0x0F] else []) ++ (if bnat h 0x24 2 ≠ 0 then [0x24] else []) ++ (if bnat h 0x26 2 ≠ 0 then [0x26] else [])

/-- The first failure of a monitor image with header `h` and bytes `b` (18 R348, 02 R38). -/
def monitorFaults (h b : List Byte) : Faults :=
  (if magicOk h then [] else [(1, 0)]) ++ (imageFaults h b).filter (fun f => f.1 == 1)
  ++ fault? 2 (least (((imageFaults h b).filter (fun f => f.1 == 2)).map Prod.snd ++ monitorHeader h))
  ++ fault? 3 ((imgPats h b).findIdx? (fun p => (checkBundle p (attrNmv h)).isSome || !monitorBundle p))
  ++ fault? 4 (least (((imageFaults h b).filter (fun f => f.1 == 4)).map Prod.snd ++
      (let x := mkCode h b 0
       x.starts.filter (fun i => x.hw.getD i 0 == 0xFFFF && ((x.bundleAt i).map (fun p => !monitorBundle p)).getD false))))

/-- The LC of die d reads n bytes for an install (18 R348, 02 R37). -/
def State.monRead (s : State) (d : Nat) (va : Word) (n : Nat) (again : Instr) : LcRd (List Byte) :=
  match s.readVa (lcEngine d) s.nextId 0 false va.toNat n with
  | .miss a => .wait ((s.owe (.atsTranslationReply (lcEngine d) a)).owe again)
  | .fault a r =>
    if !r.resolvable || (s.die d).monFailed.contains (a / 4096) then .bad a
    else if s.reqs.any (fun e => e.2.k == .page false (lcEngine d) (.mon d) && e.2.va.toNat / 4096 == a / 4096)
        || decide (pageLimit ≤ s.pagesOut (dieCore d)) then .wait (s.owe again)
    else .wait ((s.addReq (s.pageReq (dieCore d) none 0 (lcEngine d) false (.mon d) (BitVec.ofNat 64 a))).owe again)
  | .data ps =>
    if (pieces va.toNat n).any (fun p => match s.xlate (lcEngine d) (p.1 % 2 ^ 64) 0 .read with
        | .ok pa => s.paHeld pa p.2
        | _ => false) then .wait (s.owe again)
    else if anyPoison ps then .bad va.toNat
    else .ok (bytesOf ps)

/-- An install fails (18 R348): the result, and a launch-fault record; a monitor already there stays. -/
def State.monFail (s : State) (d : Nat) (va : Word) (code detail : Nat) : State :=
  (s.upDie d (fun x => { x with monResult := BitVec.ofNat 8 code, monFailed := [] })).emit false (.lc d)
    { code := code, detail := detail, addr := va.toNat }

/-- An install succeeds (18 R348): freezes that begin after it use the new monitor; one that runs finishes with the old copy. -/
def State.monInstall (s : State) (d : Nat) (va : Word) (image : List Byte) (x : Code) : State :=
  let key := s.nextCode
  let old := (s.die d).monitor
  let used (k : Nat) : Bool := s.cores.any (fun e => match e.2.mon with | some m => m.image == k | none => false)
  let codes := match old with
    | some k => if used k then s.codes else del s.codes k
    | none => s.codes
  ({ s with codes := put codes key x, nextCode := key + 1 }).upDie d (fun y =>
    { y with monitor := some key, monAddr := va, monDigest := Config.digest 0 image, monResult := 0, monFailed := [] })

/-- LP_MONIMG (18 R348). -/
def execLpMonimg (die : Nat) (va : Word) (s : State) : Host.Outcome State Fault Refusal :=
  let again : Instr := .lpMonimg die va
  .next (if 64 ≤ die ∨ !s.hostUp then s
    else if (s.die die).st ≠ .live then s.dieFencedAnswer die s.hostSrc
    else if va.toNat % 64 ≠ 0 then s.monFail die va 2 0xFFFF_FFFF
    else match s.monRead die va 256 again with
      | .wait s => s
      | .bad a => s.monFail die va 0x0C (a % 2 ^ 32)
      | .ok h =>
        let n := hdrLen h
        let body : LcRd (List Byte) :=
          if n ≤ 256 ∨ 4194304 < n then .ok [] else s.monRead die (va + 256) (n - 256) again
        match body with
        | .wait s => s
        | .bad a =>
          let early := (if magicOk h then [] else [(1, 0)]) ++ fault? 2 (least (layoutBad h [] ++ monitorHeader h))
          let f := (lowest (early ++ [(0x0C, a % 2 ^ 32)])).getD (0x0C, 0)
          s.monFail die va f.1 f.2
        | .ok rest => match lowest (monitorFaults h (h ++ rest)) with
          | some f => (s.lcRecall die va n).monFail die va f.1 f.2
          | none => (s.lcRecall die va n).monInstall die va (h ++ rest) (mkCode h (h ++ rest) (dieCell die)))

end Sys2Proof.Machine
end

