-- ==== Sys2Proof/Machine/Stacks.lean ====
section
/-! DEFINITION. Stacks.lean: format windows (04 R73 to R79), stride patterns (12 R259), dead granules (12 R252 to R254), the release of
bucket records (22 R413), refresh, activation alerts and the thermal states of a stack (12 R255 to R258). -/

namespace Sys2Proof.Machine

/-- Kinds of events that the island logs (26 R453, R456): their codes are free values (log 31). -/
inductive EvKind where
  | lowered | raised | trip | stackState | lowSupply | highSupply | pkgFail | coolant
  deriving DecidableEq, Repr

/-- Number of a kind. -/
def EvKind.num : EvKind → Nat
  | .lowered => 0 | .raised => 1 | .trip => 2 | .stackState => 3 | .lowSupply => 4 | .highSupply => 5 | .pkgFail => 6 | .coolant => 7

/-- EVENT_LOG_ENTRY (26 R453): the entry at MG_EVHEAD modulo 4,096 is written. -/
def State.logEvent (s : State) (k : EvKind) (unit : Nat) : State :=
  let m := s.mgmt
  let w0 : Word := BitVec.ofNat 64 ((Config.eventCode k.num).toNat + 2 ^ 16 * (unit % 256))
  { s with fresh := s.fresh + 1
           mgmt := { m with events := put m.events (m.evhead.toNat % 4096) (w0, Config.eventValue s.fresh, BitVec.ofNat 64 s.tc)
                            evhead := m.evhead + 1 } }

/-- Bits of CTRL of a format window that are not reserved (04 R73). -/
def fwCtrlMask : BitVec 32 := 0x8000_FCFF
/-- Bits of CTRL of a stride pattern that are not reserved (12 R259). -/
def sptCtrlMask : BitVec 32 := 0x807F_00FF

/-- [a, a + n) lies in the ordinary memory of one stack (12 R250). -/
def inOrdinary (a n : Nat) : Bool :=
  decide (0 < n) && region a == .ordinary && region (a + n - 1) == .ordinary && paStack a == paStack (a + n - 1)

/-- The view of a window, its base and length (04 R75). -/
def FWin.view (w : FWin) : Nat × Nat := (w.at 3, w.count * w.outBytes)

/-- Two views share a byte. -/
def viewsMeet (a b : Nat × Nat) : Bool := decide (a.1 < b.1 + b.2) && decide (b.1 < a.1 + a.2)

/-- SBLK that a format takes (04 R74). -/
def sblkOk (t : ElemType) (b : Nat) : Bool :=
  match t with
  | .e4m3 | .e5m2 | .t8 => b == 0 || b == 5
  | .t6 => b == 5
  | .mom8 => b == 11
  | _ => b == 0

/-- A format that EXPAND takes (04 R74). -/
def fillOk (t : ElemType) (fill : Nat) : Bool :=
  match t with
  | .e4m3 | .e5m2 | .t8 | .t6 => true
  | .bf16 | .fp16 => fill != 1
  | _ => fill == 0

/-- The first check of R74 that an enable of window n fails: 0 for none. A SLIMIT has no stated alignment to break (log 32). -/
def Hxd.fwCheck (h : Hxd) (n : Nat) (w : FWin) : Nat :=
  let a := w.at 0
  let len := w.at 1 - a
  let k := paStack a
  if a % 4096 ≠ 0 ∨ w.at 1 ≤ a ∨ !inOrdinary a len then 1
  else match w.fmt with
    | none => 2
    | some t =>
      let scales := ceilDiv w.count (2 ^ w.sblk) * (if t = .mom8 then 4 else 1)
      let v := w.view
      if w.fill = 3 ∨ t = .untyped then 2
      else if !fillOk t w.fill then 3
      else if !sblkOk t w.sblk then 4
      else if w.sblk ≠ 0 ∧ (2 ^ 42 < w.at 2 + scales ∨ paStack (w.at 2) ≠ k ∨ paStack (w.at 2 + scales - 1) ≠ k) then 5
      else if (8 * len) % memWidth t ≠ 0 ∨ (t = .t6 ∧ len % 96 ≠ 0) then 6
      else if w.fill ≠ 0 ∧ (region v.1 ≠ .view ∨ region (v.1 + v.2 - 1) ≠ .view ∨ paStack v.1 ≠ k ∨ paStack (v.1 + v.2 - 1) ≠ k
          ∨ h.fw.any (fun e => e.1 != n && e.2.expands && viewsMeet v e.2.view)) then 7
      else 0

/-- The lines of a view that any die holds are dropped (04 R79). -/
def State.dropView (s : State) (w : FWin) : State :=
  if w.expands then
    let lo := w.at 3 / 128
    let hi := (w.at 3 + w.count * w.outBytes + 4095) / 4096 * 32
    { s with dies := s.dies.map (fun e : Nat × Die => (e.1, { e.2 with
        guest := e.2.guest.filter (fun g => decide (g.1 < lo) || decide (hi ≤ g.1)) })) }
  else s

/-- Word `i` of an entry with its lower half replaced by CTRL and its upper by a status. -/
def FWin.setStat (w : FWin) (i v : Nat) : FWin := { w with regs := setAt w.regs i (BitVec.ofNat 64 (v * 2 ^ 32)) }

/-- FW_ENABLE (04 R74, R79): a window that passes every check is enabled; otherwise EN stays 0, FWSTAT says why and a record goes out. The
low bits that R73 has zero in SCBASE and VIEW are taken as reserved (log 23). -/
def State.fwEnable (s : State) (n : Nat) (ctrl : BitVec 32) : State :=
  let old := s.hxd.win n
  let regs := setAt (setAt old.regs 2 (BitVec.ofNat 64 (old.at 2 / 64 * 64))) 3 (BitVec.ofNat 64 (old.at 3 / 4096 * 4096))
  let w : FWin := ⟨ctrl &&& fwCtrlMask, regs⟩
  let code := s.hxd.fwCheck n w
  let s := s.dropView old
  if code = 0 then (s.upHxd (fun h => { h with fw := put h.fw n (w.setStat 4 0) })).dropView w
  else
    let s := s.upHxd (fun h => { h with fw := put h.fw n ({ old with ctrl := ctrl &&& fwCtrlMask &&& 0x7FFF_FFFF }.setStat 4 code) })
    s.emit false .hxd { code := 0x51, detail := n + 2 ^ 8 * code }

/-- FW_ENABLE. -/
def execFwEnable (n : Nat) (ctrl : BitVec 32) (s : State) : Host.Outcome State Fault Refusal :=
  .next (if n < 64 then s.fwEnable n ctrl else s)

/-- FW_DISABLE (04 R79). -/
def execFwDisable (n : Nat) (ctrl : BitVec 32) (s : State) : Host.Outcome State Fault Refusal :=
  .next (if 64 ≤ n then s
    else
      let old := s.hxd.win n
      (s.dropView old).upHxd (fun h => { h with fw := put h.fw n { old with ctrl := ctrl &&& fwCtrlMask &&& 0x7FFF_FFFF } }))

/-- CTRL of a stride pattern is written (12 R259). -/
def State.setSpt (s : State) (n : Nat) (ctrl : BitVec 32) : State :=
  if n < 64 then s.upHxd (fun h => { h with spt := put h.spt n { (h.pat n) with ctrl := ctrl &&& sptCtrlMask } }) else s

/-- SPT_ENABLE (12 R259): gathers that began before it complete with the old entry, since a gather is one step here. -/
def execSptEnable (n : Nat) (ctrl : BitVec 32) (s : State) : Host.Outcome State Fault Refusal :=
  .next (s.setSpt n (ctrl ||| 0x8000_0000))

/-- SPT_DISABLE (12 R259). -/
def execSptDisable (n : Nat) (ctrl : BitVec 32) (s : State) : Host.Outcome State Fault Refusal :=
  .next (s.setSpt n (ctrl &&& 0x7FFF_FFFF))

/-- Granules of ordinary memory are dead (12 R252, R253): every byte reads zero, and nothing of them is poison or owned. -/
def State.killGranules (s : State) (k g n : Nat) : State :=
  let lo := k * 2 ^ 37 + 65536 * g
  let hi := lo + 65536 * n
  let s := { s with mem := s.mem.filter (fun c => decide (c.1 < lo) || decide (hi ≤ c.1)) }
  let s := [2 * k, 2 * k + 1].foldl (fun s d => s.upDie d (fun x => { x with
    dirty := x.dirty.filter (fun l => decide (128 * l < lo) || decide (hi ≤ 128 * l)) })) s
  s.upStack k (fun x => (upFrom g n).foldl (fun x g => x.declareDead k g)
    { x with owner := x.owner.filter (fun e => decide (128 * e.1 < lo) || decide (hi ≤ 128 * e.1)) })

/-- RB_DEAD (12 R253, R254): the named granules are declared dead at one point in the RBD's order, or the write is refused with a
record. -/
def execRbDead (k : Nat) (v : Word) (s : State) : Host.Outcome State Fault Refusal :=
  let n := fld v.toNat 48 16 + 1
  let pa := fld v.toNat 16 26 * 65536
  .next (if 32 ≤ k then s
    else if !inOrdinary pa (65536 * n) || paStack pa != k then
      s.emit false (.rbd k) { code := 0x52, detail := k, addr := v.toNat }
    else if s.stackShut k then s.owe (.rbDead k v)
    else s.killGranules k (granule64 pa) n)

/-- RB_BKREL (22 R413): a bucket in DONE, FAILED or NONFINITE is freed; any other is left. -/
def execRbBkrel (k : Nat) (v : Word) (s : State) : Host.Outcome State Fault Refusal :=
  let b := v.toNat % 4096
  .next (match look (s.stack k).buckets b with
    | some x => match x.st with
      | .done | .failed | .nonfinite => s.upStack k (fun y => { y with buckets := del y.buckets b })
      | .open_ | .running => s
    | none => s)

/-- The dead granules of a stack hold a row (12 R251, R252): c is 48 times the row plus the bank. -/
def Stack.rowDead (k : Stack) (ch bank row : Nat) : Bool :=
  let c := 48 * row + bank
  k.deadG.contains ((c * 512 + Nat.xor ch (c % 512)) / 64)

/-- REFRESH (12 R255, R256): a live row is refreshed and its counter cleared; a dead one is skipped, and self-refresh is not a step. -/
def execRefresh (k ch bank row : Nat) (s : State) : Host.Outcome State Fault Refusal :=
  let x := s.stack k
  .next (if x.therm = .selfref ∨ x.rowDead ch bank row then s
    else s.upStack k (fun x => { x with rows := del x.rows (rowAt ch bank row) }))

/-- ACTIVATION_ALERT (12 R256), which the stack finds in every TC cycle of itself too. -/
def execActivationAlert (k ch bank row : Nat) (s : State) : Host.Outcome State Fault Refusal :=
  .next (s.upStack k (fun x => x.alert s.tc ch bank row))

/-- ALERT_BANK_REOPEN (12 R256): 504 to 576 TC cycles after the alert. -/
def execAlertBankReopen (k ch bank : Nat) (s : State) : Host.Outcome State Fault Refusal :=
  .next (match look (s.stack k).closed (ch * 48 + bank) with
    | some t => if t + 504 ≤ s.tc then s.upStack k (fun x => { x with closed := del x.closed (ch * 48 + bank) }) else s
    | none => s)

/-- A change of the thermal state of a stack (12 R257), which is logged. -/
def State.setTherm (s : State) (k : Nat) (t : Therm) (temp : Nat) : State :=
  (s.upStack k (fun x => { x with therm := t, temp := temp, srTc := if t = .selfref then s.tc else x.srTc })).logEvent .stackState k

/-- RBD_WARM (12 R257). -/
def execRbdWarm (k temp : Nat) (s : State) : Host.Outcome State Fault Refusal :=
  .next (if (s.stack k).therm = .normal ∧ 95 ≤ temp then s.setTherm k .warm temp else s)

/-- RBD_NORMAL (12 R257). -/
def execRbdNormal (k temp : Nat) (s : State) : Host.Outcome State Fault Refusal :=
  .next (if (s.stack k).therm = .warm ∧ temp < 90 then s.setTherm k .normal temp else s)

/-- RBD_DRAINING (12 R257, R258): from now on senders hold their requests. -/
def execRbdDraining (k temp : Nat) (s : State) : Host.Outcome State Fault Refusal :=
  let t := (s.stack k).therm
  .next (if (t = .normal ∨ t = .warm) ∧ 105 ≤ temp then s.setTherm k .draining temp else s)

/-- RBD_SELFREF (12 R257, R258): an accepted request is complete in its own step here, so none is left. Self-refresh refreshes every row, and
so clears every row's counter (R256). -/
def execRbdSelfref (k : Nat) (s : State) : Host.Outcome State Fault Refusal :=
  .next (if (s.stack k).therm = .draining then
      (s.setTherm k .selfref (s.stack k).temp).upStack k (fun x => { x with rows := [] })
    else s)

/-- RBD_SELFREF_EXIT (12 R257). -/
def execRbdSelfrefExit (k temp : Nat) (s : State) : Host.Outcome State Fault Refusal :=
  let x := s.stack k
  .next (if x.therm = .selfref ∧ temp < 90 ∧ x.srTc + 1_800_000 ≤ s.tc then s.setTherm k .normal temp else s)

end Sys2Proof.Machine
end

