-- ==== Sys2Proof/Machine/Salder.lean ====
section
/-! DEFINITION. Salder.lean: the Salder ports (25 R445 to R447). -/

namespace Sys2Proof.Machine

/-- Change a port. -/
def State.upPort (s : State) (n : Nat) (f : Port → Port) : State := s.upHxd (fun h => { h with ports := put h.ports n (f (h.port n)) })

/-- Requests in custody of a port leave by another eligible port, or wait for one (25 R447). -/
def State.resend (s : State) (n : Nat) : State :=
  let ids := (s.hxd.port n).custody
  (s.upPort n (fun p => { p with custody := [] })).oweAll (ids.map (fun id =>
    if (look s.engs id).isSome then Instr.pushArrival (.own id) else Instr.gaccArrival (.own id)))

/-- A port leaves UP, or TRAINING (25 R445, R447). -/
def State.portTo (s : State) (n : Nat) (st : PortSt) : State := (s.upPort n (fun p => { p with st := st })).resend n

/-- The fabric die of a port is in service (25 R445, 20 R393). -/
def State.portLive (s : State) (n : Nat) : Bool := (s.die (64 + n / 16)).st == .live

/-- EN of a port is written. -/
def Port.en (p : Port) (b : Bool) : Port := { p with ctl := if b then 1 else 0 }

/-- SALDER_PORT_ENABLE (25 R445): a DOWN port trains; a FAILED one stays FAILED until EN has been written as 0. -/
def execSalderPortEnable (n : Nat) (s : State) : Host.Outcome State Fault Refusal :=
  .next (if 64 ≤ n then s
    else s.upPort n (fun p => { p.en true with st := if p.st = .down ∧ s.portLive n then .training else p.st }))

/-- SALDER_PORT_DISABLE (25 R445). -/
def execSalderPortDisable (n : Nat) (s : State) : Host.Outcome State Fault Refusal :=
  .next (if 64 ≤ n then s else (s.upPort n (fun p => p.en false)).portTo n .down)

/-- SALDER_PORT_FORGET (25 R445, R446): EN 0, and the recorded partner is forgotten. -/
def execSalderPortForget (n : Nat) (s : State) : Host.Outcome State Fault Refusal :=
  .next (if 64 ≤ n then s else (s.upPort n (fun p => { p.en false with recorded := false, partner := 0 })).portTo n .down)

/-- PORT_TRAINED (25 R445): the partner reports an identifier. The local one, or one that differs from that recorded, fails the port; an
exchange that did not succeed leaves it in training. -/
def execPortTrained (n partner : Nat) (refused : Bool) (s : State) : Host.Outcome State Fault Refusal :=
  let p := s.hxd.port n
  .next (if p.st ≠ .training then s
    else if partner % 4096 = s.hxd.pkgid.toNat ∨ (p.recorded ∧ p.partner ≠ partner % 4096) then s.portTo n .failed
    else if refused then s
    else s.upPort n (fun p => { p with st := .up, recorded := true, partner := partner % 4096 }))

/-- PORT_DOWN (25 R447, R448): an UP port loses its link and goes DOWN. -/
def execPortDown (n : Nat) (s : State) : Host.Outcome State Fault Refusal :=
  .next (if (s.hxd.port n).st ≠ .up then s else s.portTo n .down)

/-- FLIT_REPLAY (25 R446). -/
def execFlitReplay (n : Nat) (s : State) : Host.Outcome State Fault Refusal :=
  .next (if 64 ≤ n then s else s.upPort n (fun p => { p with replays := p.replays + 1 }))

/-- A fenced fabric die takes its 16 ports down (20 R393). -/
def State.portsDown (s : State) (f : Nat) : State := (upFrom (16 * f) 16).foldl (fun s n => if (s.hxd.port n).st = .down then s else s.portTo n .down) s

/-- A fabric die back in service trains its enabled ports (25 R445). -/
def State.portsTrain (s : State) (f : Nat) : State :=
  (upFrom (16 * f) 16).foldl (fun s n => s.upPort n (fun p => { p with st := if p.ctl = 1 ∧ p.st = .down then .training else p.st })) s

end Sys2Proof.Machine
end

