-- ==== Sys2Proof/Machine/Contain.lean ====
section
/-! DEFINITION. Contain.lean: containment (20 R377 to R397): what an uncorrectable error does, the fence of a die, the reset of an RBD in
place, the failure of the package domain and the permit audit. -/

namespace Sys2Proof.Machine

/-- A POISONED record (20 R397), on Lane N. -/
def State.poisonedRec (s : State) (src : RecSrc) (owner structure_ unit : Nat) : State :=
  s.emit false src { code := 0x40, tag := owner, detail := structure_, addr := unit }

/-- DIEFENCED records of a die, one for each source that was answered so (20 R389, R397). -/
def State.refusedRecs (s : State) (d : Nat) : State :=
  ((s.die d).refused.foldl (fun s e => s.emit false .hxd
    { code := 0x20, detail := d + 2 ^ 8 * e.1 + 2 ^ 16 * Nat.min 65535 e.2 }) s).upDie d (fun x => { x with refused := [] })

/-- A FENCE record (20 R397), on Lane H. -/
def State.fenceRec (s : State) (d reason : Nat) (hold : Bool) : State :=
  s.emit true .hxd { code := 0x43, detail := d + 2 ^ 8 * reason + 2 ^ 16 * nb hold }

/-- A die fenced for the fourth time since cold reset stops in HELD (20 R387). -/
def Die.holds (d : Die) : Bool := decide (4 ≤ d.fences)

/-- Step 1 of a fence, and the start of step 2 (20 R387): the die is marked FENCING, a FENCE record goes out, and a placement pass runs (05
R89). A fabric die takes its ports down (R393). Requests in custody reach their homes by other routes (R388, R390), which is not seen here. -/
def State.fenceNow (s : State) (d reason : Nat) : State :=
  let s := s.upDie d (fun x => { x with st := .fencing, lost := false, unheld := false, missed := 0, fences := x.fences + 1 })
  let s := (s.fenceRec d reason (s.die d).holds).owe .placementPass
  if 64 ≤ d then s.portsDown (d - 64) else s

/-- A live die is fenced (20 R387). -/
def State.fenceDie (s : State) (d reason : Nat) : State := if 67 < d ∨ (s.die d).st ≠ .live then s else s.fenceNow d reason

/-- DIE_FENCE (20 R387). -/
def execDieFence (die reason : Nat) (s : State) : Host.Outcome State Fault Refusal := .next (s.fenceDie die reason)

/-- CT_FENCE with bit 8 (20 R396). -/
def execCtFenceFence (die : Nat) (s : State) : Host.Outcome State Fault Refusal := .next (s.fenceDie die 6)

/-- CT_FENCE with bit 9 (20 R396, 26 R451): valid only while the die is HELD; steps 6 to 8 run. -/
def execCtFenceClearHold (die : Nat) (s : State) : Host.Outcome State Fault Refusal :=
  .next (if (s.die die).st = .held then s.upDie die (fun x => { x with st := .resetting, unheld := true }) else s)

/-- HEARTBEAT (20 R387). -/
def execHeartbeat (die : Nat) (s : State) : Host.Outcome State Fault Refusal :=
  .next (if (s.die die).st = .live then s.upDie die (fun x => { x with missed := 0, beat := s.tc }) else s)

/-- HEARTBEAT_MISS (20 R387): a heartbeat is due every 2^16 TC cycles, and three missed ones fence the die. -/
def execHeartbeatMiss (die : Nat) (s : State) : Host.Outcome State Fault Refusal :=
  .next (if (s.die die).st ≠ .live ∨ s.tc < (s.die die).beat + 65536 then s
    else
      let s := s.upDie die (fun x => { x with missed := x.missed + 1, beat := s.tc })
      if 3 ≤ (s.die die).missed then s.owe (.dieFence die 2) else s)

/-- Step 6 of a fence (20 R387): every register, slice, table and core of the die is cleared. What the HXD keeps of it stays: its state,
its counts and its last monitor. -/
def State.warmReset (s : State) (d : Nat) : State :=
  let x := s.die d
  let mine (e : Nat) : Bool := decide (e < 2048) && coreDie e == d
  let s := s.setDie d { Die.reset with
    st := if x.holds then .held else .resetting, fences := x.fences, corrected := x.corrected, refused := x.refused
    monitor := x.monitor, monAddr := x.monAddr, mhz := x.mhz, temp := x.temp }
  let s := if d < 64 then { s with
      cores := s.cores.filter (fun e => !mine e.1)
      followers := s.followers.filter (fun e => !mine e.1)
      active := s.active.filter (fun c => !mine c)
      clusters := s.clusters.filter (fun e => clusterDie e.1 != d)
      xcache := s.xcache.filter (fun e => !mine e.1 && !(decide (10000 ≤ e.1) && decide (e.1 < 20000) && clusterDie (e.1 - 10000) == d)) }
    else s
  if x.holds then s.refusedRecs d else s

/-- Launches lose a die of their rectangle (20 R387 step 3, 05 R99). -/
def State.loseDie (s : State) (d : Nat) : State :=
  s.launches.foldl (fun s e =>
    let l := e.2
    if !l.onMesh || !l.dies.contains d then s
    else match l.state with
      | .placed => s.reissue e.1 d
      | .preempting => (s.reissue e.1 d).noteSaved e.1
      | .stopping _ => (s.reissue e.1 d).owe (.launchComplete e.1)
      | .placing => s.oweAll (l.waitStep e.1)
      | _ => s) s

/-- DIE_QUIESCED (20 R387 steps 2 and 3): the contexts on the die end without records, their points are reissued; their page requests and
those of their engines are gone. A launch that its LC was accepting is accepted by the LC of the lowest live die (R391, log 70). A fabric die
goes on to its reset. -/
def State.quiesced (s : State) (d : Nat) : State :=
  let x := s.die d
  if x.st ≠ .fencing ∨ x.lost then s
  else if 64 ≤ d then s.warmReset d
  else
    let mine (c : Nat) : Bool := !isNmv c && coreDie c == d
    let moved := s.launches.filter (fun e => e.2.die == d && (match e.2.state with | .accepting | .held => true | _ => false))
    let s := moved.foldl (fun s e => s.setLaunch e.1 { e.2 with die := s.lowestLive, failed := [] }) s
    let s := (moved.filter (fun e => e.2.state == .accepting)).foldl (fun s e => s.owe (.launchAcceptance e.1)) s
    let s := { s with
      engs := s.engs.filter (fun e => !mine e.2.core)
      reqs := s.reqs.filter (fun e => !mine e.2.core || (match e.2.k with | .page _ _ _ => false | _ => true)) }
    let s := s.loseDie d
    let s := { s with active := s.active.filter (fun c => !mine c), followers := s.followers.filter (fun e => !mine e.1) }
    (s.upDie d (fun x => { x with lost := true })).owe .placementPass

/-- DIE_QUIESCED. -/
def execDieQuiesced (die : Nat) (s : State) : Host.Outcome State Fault Refusal := .next (s.quiesced die)

/-- The owner of a unit of ordinary memory (03 R54, 20 R397). -/
def State.unitOwner (s : State) (pa : Nat) : Nat := (look (s.stack (paStack pa)).owner (pa / 128)).getD 0

/-- DIE_SALVAGED (20 R387 steps 4 to 6): every dirty line is at its home, those that failed their check as poison; a SALVAGE record gives
the counts; the die is reset. -/
def State.salvaged (s : State) (d : Nat) (failed : List Nat) : State :=
  let x := s.die d
  if x.st ≠ .fencing ∨ !x.lost ∨ 64 ≤ d then s
  else
    let bad := x.dirty.filter failed.contains
    let s := bad.foldl (fun s u => (s.poisonUnit 0 (128 * u)).poisonedRec (.rbd (dieCell d)) (s.unitOwner (128 * u)) 4 (128 * u)) s
    let s := s.emit true (.rbd (dieCell d))
      { code := 0x44, detail := d + 2 ^ 7 * (x.dirty.length - bad.length), addr := bad.length }
    s.warmReset d

/-- DIE_SALVAGED. -/
def execDieSalvaged (die : Nat) (failed : List Nat) (s : State) : Host.Outcome State Fault Refusal := .next (s.salvaged die failed)

/-- A die is LIVE again (20 R387 step 8, 05 R99 step 5, 26 R451). -/
def State.readmit (s : State) (d : Nat) : State :=
  let unheld := (s.die d).unheld
  let s := s.upDie d (fun x => { x with st := .live, unheld := false, missed := 0, beat := s.tc })
  let s := (s.emit false .hxd { code := 0x45, detail := d }).refusedRecs d
  let s := if unheld then { s with mgmt := { s.mgmt with fails := del s.mgmt.fails d } } else s
  if 64 ≤ d then s.portsTrain (d - 64)
  else (s.launches.foldl (fun s e => if e.2.onMesh then s.rejoin e.1 d else s) s).owe .placementPass

/-- DIE_READMIT (20 R387 steps 7 and 8): with its links trained the die is LIVE. Otherwise a die whose HOLD software cleared stands HELD
again, with a FENCE record (26 R451), and any other is fenced once more, from step 1 on. -/
def execDieReadmit (die : Nat) (trained : Bool) (s : State) : Host.Outcome State Fault Refusal :=
  let x := s.die die
  .next (if x.st ≠ .resetting then s
    else if trained then s.readmit die
    else if x.unheld then
      ((s.upDie die (fun x => { x with fences := x.fences + 1, unheld := false, st := .held })).fenceRec die 5 true).refusedRecs die
    else s.fenceNow die 5)

/-- The virtual ranges that a request of an engine has still to read or write: first byte, length, access. -/
def State.engRanges (s : State) (e : Eng) : List (Word × Nat × Acc) :=
  match e.k with
  | .copy rows len dstr sstr _ => (rowsOf e.dst e.src dstr sstr (upFrom 0 rows)).flatMap (fun r => [(r.1, len, Acc.write), (r.2, len, Acc.read)])
  | .fill n rows _ => match (s.ctxCore e.core e.rid).bind (fun k => look k.sleeves n.toNat) with
    | some x => rows.map (fun r => (x.src + BitVec.ofNat 64 r * x.sstride, x.rowlen, Acc.read))
    | none => []
  | .push _ _ _ _ => [(e.src, e.stack, .read)]
  | .copys | .gather _ _ => [(e.src, 1, .read), (e.dst, 1, .write)]

/-- A range of a request of an engine lies in part, as far as it is translated, at places that a predicate names. -/
def State.rangeAt (s : State) (e : Eng) (p : Nat → Nat → Bool) (x : Word × Nat × Acc) : Bool :=
  (pieces x.1.toNat x.2.1).any (fun y => match s.xlate e.engine (y.1 % 2 ^ 64) 0 x.2.2 with
    | .ok pa => region pa == .ordinary && p pa y.2
    | _ => false)

/-- A request of an engine has control state in the RBD of stack k: a gather that it serves; any other with a row that is read or written
there. -/
def State.engAt (s : State) (e : Eng) (k : Nat) : Bool :=
  match e.k with
  | .gather _ _ => e.stack == k
  | _ => (s.engRanges e).any (s.rangeAt e (fun pa _ => paStack pa == k))

/-- Requests of tag 0 whose entry in an RBD fails (20 R377): those for the place the error names. -/
def State.spoiled (s : State) (a : Nat) : List Nat :=
  (s.reqs.filter (fun e => e.2.owner == 0 && e.2.pa == a)).map Prod.fst ++
  (s.engs.filter (fun e => e.2.owner == 0 && s.engAt e.2 (paStack a) &&
    (s.engRanges e.2).any (s.rangeAt e.2 (fun pa n => decide (pa ≤ a) && decide (a < pa + n))))).map Prod.fst

/-- Steps 1 to 3 of the reset of an RBD in place (20 R392): requests whose control state is lost fail, engines' among them, the tags of those
and of the buckets in progress are killed, and the core of a failed request of tag 0 rewinds. A kill names the place of a failed request of its
tag, or none (R397). DRAM refreshes itself, and the tables of the NMV cores are lost (09 R193): whether the failing index of an earlier CTLD
outlives the reset the spec does not say, and it goes with VALID (log 118). -/
def State.rbdBegin (s : State) (k : Nat) (lost : List Nat) : State :=
  if (s.stack k).resetting then s
  else
    let rs := s.reqs.filter (fun e => lost.contains e.1 && region e.2.pa == .ordinary && paStack e.2.pa == k && (match e.2.k with
      | .page _ _ _ | .tagnew _ _ | .tagret _ | .tagq _ | .lnch | .cancel _ => false
      | _ => true))
    let es := s.engs.filter (fun e => lost.contains e.1 && s.engAt e.2 k)
    let tags := (rs.map (fun e => e.2.owner) ++ es.map (fun e => e.2.owner) ++ ((vals (s.stack k).buckets).filter (fun b => b.st == .open_ || b.st == .running)).map
      (fun b => b.tag)).eraseDups.filter (fun t => t != 0)
    let s := s.upStack k (fun x => { x with resetting := true, killed := tags, rows := [] })
    let s := { s with cores := s.cores.map (fun (e : Nat × Core) =>
      (e.1, if isNmv e.1 && nmvStack e.1 == k then { e.2 with ctValid := false, ctFail := 0 } else e.2)) }
    let s := rs.foldl (fun s e => s.dropReq e.1) s
    let s := es.foldl (fun s e => { s.dropPages e.2 with engs := del s.engs e.1 }) s
    let at_ (t : Nat) : Nat := ((rs.find? (fun e => e.2.owner == t)).map (fun e => e.2.pa)).getD 0
    let s := tags.foldl (fun s t => s.killTag t 12 (at_ t) (.rbd k)) s
    let hit := (rs.filter (fun e => e.2.owner == 0)).map (fun e => (e.2.core, e.2.rid)) ++
      (es.filter (fun e => e.2.owner == 0)).map (fun e => (e.2.core, e.2.rid))
    hit.eraseDups.foldl (fun s e =>
      if s.ctxAt e.1 e.2 = .running ∨ (isNmv e.1 ∧ (s.core e.1).share.isSome) then s.rewindCore e.1 .poison 0 else s) s

/-- RBD_RESET (20 R392). -/
def execRbdReset (k : Nat) (lost : List Nat) (s : State) : Host.Outcome State Fault Refusal := .next (s.rbdBegin k lost)

/-- RBD_RESET_RESUME (20 R392 step 4): an RBDRESET record goes out. -/
def execRbdResetResume (k : Nat) (s : State) : Host.Outcome State Fault Refusal :=
  let x := s.stack k
  .next (if x.resetting then
      (s.upStack k (fun x => { x with resetting := false, killed := [] })).emit true (.rbd k)
        { code := 0x47, detail := k + 2 ^ 8 * x.killed.length }
    else s)

/-- PACKAGE_FAIL (20 R394): CT_PKG is set; placement, acceptance and new points stop; contexts stop at their next stitch point. -/
def State.pkgFail (s : State) (structure_ : Nat) : State :=
  if s.hxd.pkgFailed then s
  else ((s.upHxd (fun h => { h with pkgFailed := true })).logEvent .pkgFail 0).emit true .hxd { code := 0x48, detail := structure_ % 256 }

/-- PACKAGE_FAIL. -/
def execPackageFail (structure_ : Nat) (s : State) : Host.Outcome State Fault Refusal := .next (s.pkgFail structure_)

/-- An error in a unit of DRAM (20 R378): once for each unit, and never in a dead granule (12 R252); in the cell pool, the cell that lies
there (03 R45). Reserves hold copies of data kept elsewhere, which are fetched again. -/
def State.dramError (s : State) (pa : Nat) : State :=
  let k := paStack pa
  let x := s.stack k
  match region pa with
  | .ordinary =>
    if x.poison.contains (pa / 128) ∨ x.deadG.contains (granule64 pa) then s
    else (s.poisonUnit 0 pa).poisonedRec (.rbd k) (s.unitOwner pa) 1 (pa / 128 * 128)
  | .pool =>
    match x.place.find? (fun e => e.2 == (paOff pa - 0x14_0000_0000) / 1024) with
    | none => s
    | some e =>
      let u := e.1 * 8 + pa / 128 % 8
      if x.cellPoison.contains u then s
      else (s.upStack k (fun x => { x with cellPoison := addNew x.cellPoison u })).poisonedRec (.rbd k) (e.1 / 2 ^ 32) 1 (pa / 128 * 128)
  | _ => s

/-- An error in a unit of scratch or of a FIFO slice (20 R378). -/
def State.sliceError (s : State) (cl a : Nat) : State :=
  let k := s.cluster cl
  let n := sliceOf a
  let x := k.slice n
  let u := a / 128
  match x.mode with
  | .scratch =>
    if k.poison.contains u ∨ scratchSize ≤ a then s
    else (s.setCluster cl { k with poison := addNew k.poison u }).poisonedRec (.lc (clusterDie cl)) ((look k.owner u).getD 0) 2 (128 * u)
  | .fifo =>
    let i := a % 786432 / 128
    match x.fifo[i]? with
    | none => s
    | some f =>
      if f.poison then s
      else (s.setCluster cl { k with slices := put k.slices n { x with fifo := x.fifo.set i { f with poison := true } } }).poisonedRec
        (.lc (clusterDie cl)) f.owner 2 (128 * u)
  | .cache => s

/-- An error in a dirty line (20 R378): it is poison, and its writeback carries the mark to its home. -/
def State.dirtyError (s : State) (pa : Nat) : State :=
  match [2 * paStack pa, 2 * paStack pa + 1].find? (fun d => (s.die d).dirty.contains (pa / 128)) with
  | none => s
  | some d => if (s.stack (paStack pa)).poison.contains (pa / 128) then s
      else (s.poisonUnit 0 pa).poisonedRec (.lc d) (s.unitOwner pa) 3 (pa / 128 * 128)

/-- The core that leads the context of core c: the leader of its pair, where c follows (07 R151). -/
def State.leaderOf (s : State) (c : Nat) : Nat := if (look s.followers c).isSome then partner c else c

/-- A running context on core c, or none. -/
def State.runs (s : State) (c : Nat) : Bool := !((s.core c).phase == .idle) && !((s.core c).phase == .ended)

/-- An entry of a running context's core fails its check (20 R377, R379); an error in either core of a pair rewinds both (R384). -/
def State.coreError (s : State) (c code : Nat) : State :=
  let c := s.leaderOf c
  if s.runs c then s.upCore c (fun k => { k with bad := addNew k.bad code }) else s

/-- A snapshot latch of a freeze fails its check (20 R377): its result is poison, as the frame records it (18 R344, R346). -/
def Core.snapError (k : Core) (e : Nat) : Core :=
  if k.mon.isNone ∨ fld (k.tf 9) 32 8 ≤ e then k
  else
    let tag := k.tf (256 + 17 * e)
    k.setTfs (256 + 17 * e) ((tag % 2 ^ 30 + 2 ^ 30 + 2 ^ 31 * fld tag 31 1 + 2 ^ 32 * Cause.poison.code) :: List.replicate 16 0)

/-- The cell that lies in 1 KiB of a stack is poison, and its tag is killed (20 R392). -/
def State.cellLost (s : State) (k tag pa at_ : Nat) : State :=
  ((upFrom 0 8).foldl (fun s i => s.poisonUnit tag (pa + 128 * i)) s).owe (.tagKill tag 9 (at_ + k * 2 ^ 37))

/-- The cell directory or the dead bits fail (20 R392): the granule is poison, and a tag whose cell it held is killed, every one where it is a
granule of the cell pool. A dead bit concerns a granule of 64 KiB (12 R252), which no longer counts as dead: its contents are not known (log
100). -/
def State.directoryError (s : State) (k tag g : Nat) : State :=
  let pa := k * 2 ^ 37 + 1024 * g % 2 ^ 37
  if tag = 0 then
    let b := pa / 65536 * 65536
    let s := s.upStack k (fun x => { x with deadG := without x.deadG (granule64 b) })
    if region b = .pool then
      let off (n : Nat) : Nat := 0x14_0000_0000 + 1024 * n
      ((s.stack k).place.filter (fun e => off e.2 / 65536 == paOff b / 65536)).foldl (fun s e =>
        s.cellLost k (e.1 / 2 ^ 32) (1024 * (e.1 % 2 ^ 32)) (off e.2)) s
    else if region b = .ordinary then (upFrom 0 512).foldl (fun s i => s.poisonUnit 0 (b + 128 * i)) s
    else s
  else if (s.cell tag pa).isSome then s.cellLost k tag pa (paOff pa)
  else s

/-- UNCORRECTABLE_ERROR (20 R377): by the domain of the structure that holds the entry. A withheld store that fails rewinds its core at once
(log 101). A unit of a local store is poison, as one of scratch is, and R397 has no record for it (log 119). -/
def State.uncorrectable (s : State) : ErrSite → State
  | .dram pa => s.dramError pa
  | .slice cl a => s.sliceError cl a
  | .dirty pa => s.dirtyError pa
  | .sreg c n => s.coreError c (codeS n)
  | .vreg c n => s.coreError c (codeV n)
  | .preg c n => s.coreError c (codeP n)
  | .freg c n => s.coreError c (codeF n)
  | .latch c n => s.coreError c (codeK n)
  | .bank c n => s.coreError c (codeB n)
  | .retq c seq => s.upCore (s.leaderOf c) (fun k => k.upPend seq (fun p => { p with st := .poison 0 }))
  | .snapshot c e => s.upCore (s.leaderOf c) (fun k => k.snapError e)
  | .withheld c i =>
    let c := s.leaderOf c
    if s.runs c ∧ i < (s.core c).sbuf.length then s.rewindCore c .poison 0 else s
  | .spill c off => s.upCore (s.leaderOf c) (fun k => if off < 32768 then { k with badSpill := addNew k.badSpill (off / 128) } else k)
  | .localStore c off => s.upCore c (fun k => { k with badLocal := addNew k.badLocal (off / 128) })
  | .shadow c => if s.runs (s.leaderOf c) then s.escalate (s.leaderOf c) .poison 0 else s
  | .cellDir k tag g => s.directoryError k tag g
  | .reqEntry st tag a =>
    if tag ≠ 0 then s.owe (.tagKill tag st a)
    else if st = 6 then s.owe (.dieFence a 1)
    else if st = 8 then s.owe (.dieFence a 1)
    else if st = 7 then s.rbdBegin (paStack a) (s.spoiled a)
    else s
  | .dieCtl d => s.owe (.dieFence d 1)
  | .rbdCtl k => s.rbdBegin k []
  | .hxd st => s.owe (.packageFail st)
  | .copyOfCleanLine d line => s.upDie d (fun x => { x with guest := x.guest.filter (fun g => g.1 % 2 ^ 49 != line) })
  | .codeLine c line => s.upCore (s.leaderOf c) (fun k => { k with cbuf := without k.cbuf line })

/-- UNCORRECTABLE_ERROR. -/
def execUncorrectableError (site : ErrSite) (s : State) : Host.Outcome State Fault Refusal := .next (s.uncorrectable site)

/-- CORRECTED_ERROR (20 R377, R396): on a die, or on the RBD of a stack. -/
def execCorrectedError (place : CorrectedAt) (s : State) : Host.Outcome State Fault Refusal :=
  .next (match place with
    | .die d => s.upDie d (fun x => { x with corrected := x.corrected + 1 })
    | .rbd k => s.upStack k (fun x => { x with corrected := x.corrected + 1 }))

/-- One discrepancy of an audit (20 R395): a record, and a fence of the die if the same link showed one at the audit before. -/
def State.discrepancy (s : State) (x : Discrepancy) : State :=
  let old := (s.die x.die).auditBad
  let s := s.emit true .hxd { code := 0x46, detail := x.die % 128 + 2 ^ 8 * (x.link % 8) + 2 ^ 11 * (x.vc % 16) + 2 ^ 15 * nb x.dup
    + 2 ^ 16 * (x.n % 65536) }
  if old.contains x.link then s.owe (.dieFence x.die 4) else s

/-- A discrepancy that a permit audit does not count (20 R395): the link into a stack in DRAINING or SELFREF holds its permits. -/
def State.withholds (s : State) (x : Discrepancy) : Bool :=
  x.link == 4 && decide (x.die < 64) && ((s.stack (dieCell x.die)).therm == .draining || (s.stack (dieCell x.die)).therm == .selfref)

/-- PERMIT_AUDIT (20 R395, R396): one interval or more after the audit before. -/
def execPermitAudit (found : List Discrepancy) (s : State) : Host.Outcome State Fault Refusal :=
  .next (if s.tc < s.hxd.auditTc + 2 ^ s.hxd.auditLog2 then s
    else
      let found := found.filter (fun x => !s.withholds x)
      let s := found.foldl State.discrepancy s
      let s := (upFrom 0 68).foldl (fun (s : State) d =>
        let now : List Nat := ((found.filter (fun x => x.die == d)).map (fun x => x.link)).eraseDups
        if (s.die d).auditBad = now then s else s.upDie d (fun y => { y with auditBad := now })) s
      s.upHxd (fun h => { h with audits := h.audits + 1, auditTc := s.tc }))

end Sys2Proof.Machine
end

