-- ==== Sys2Proof/Machine/Manage.lean ====
section
/-! DEFINITION. Manage.lean: start-up and the management island (26 R449 to R456). -/

namespace Sys2Proof.Machine

/-- Steps of the island, which goes on with the commands of its mailboxes whatever becomes of the package (26 R454). -/
def ofIsland : Instr → Bool
  | .upwrite _ | .attest _ => true
  | _ => false

/-- Power is taken from every die but the island (26 R453), or the package is reset (R450): what is left is the island's, and the model's
own fields. -/
def State.unpowered (s : State) : State :=
  { State.reset with agenda := s.agenda, fresh := s.fresh, tc := s.tc, mgmt := s.mgmt, iommu := s.iommu, inflight := s.inflight.filter ofIsland }

/-- Key of the failed-start count among the counts in flash (26 R451): dies have 0 to 67, ports 68 to 75. -/
def startKey : Nat := 200

/-- A count in flash (26 R451). -/
def Mgmt.failsOf (m : Mgmt) (u : Nat) : Nat := (look m.fails u).getD 0

/-- COLD_RESET (26 R450, R451): the journal is kept, every register block is clear, TC is 0, and the island begins step 1 from the slot for the
next start, which after two failed starts is the other one. The straps set HX_MODE (25 R439). -/
def State.coldReset (s : State) (endpoint : Bool) (port : Nat) : State :=
  let m := s.mgmt
  let alt := decide (2 ≤ m.failsOf startKey)
  { s.unpowered with
    tc := 0
    mgmt := { Mgmt.reset with
      st := .starting 1, slot := m.selected % 2, selected := m.selected % 2, altered := alt, fwBytes := m.fwBytes, fwVersion := m.fwVersion
      minVersion := m.minVersion, endpoint := endpoint, hport := port % 8, jprev := m.jnow, reports := m.reports
      connMbox := m.connMbox, connCmd := m.connCmd, connFirst := m.connFirst, report := m.report, md := m.md
      fails := if alt then put m.fails startKey 0 else m.fails } }

/-- COLD_RESET. -/
def execColdReset (endpoint : Bool) (port : Nat) (s : State) : Host.Outcome State Fault Refusal := .next (s.coldReset endpoint port)

/-- Units of a start step (26 R450). -/
def stepUnits (n : Nat) : List Nat :=
  if n = 4 then upFrom 0 32 else if n = 5 then upFrom 0 68 else if n = 6 then upFrom 0 8 else if n = 7 then upFrom 0 64 else [0]

/-- Key in flash of a unit of steps 5 and 6 (26 R451). -/
def unitKey (n u : Nat) : Nat := if n = 6 then 68 + u else u

/-- Outcome of a unit (26 R450, R451): 0 DONE, 1 SKIPPED, 2 ALTERED, 3 FAILED. -/
def Mgmt.outcome (m : Mgmt) (n u : Nat) (failed : List Nat) : Nat :=
  let counted := n == 5 || (n == 6 && !(m.endpoint && u == m.hport))
  if counted && decide (2 ≤ m.failsOf (unitKey n u)) then 1
  else if failed.contains u && n != 7 && n != 8 then 3
  else if n == 2 && m.altered then 2
  else 0

/-- The failure counts after a unit's outcome (26 R451). -/
def Mgmt.count (m : Mgmt) (n u o : Nat) : Mgmt :=
  if n = 5 ∨ n = 6 then
    if o = 3 then { m with fails := put m.fails (unitKey n u) (Nat.min 3 (m.failsOf (unitKey n u) + 1)) }
    else if o = 0 then { m with fails := del m.fails (unitKey n u) }
    else m
  else m

/-- One journal entry (26 R450, R451). -/
def Mgmt.journal (m : Mgmt) (n u o reason tc : Nat) : Mgmt :=
  let detail := if n = 5 ∨ n = 6 then m.failsOf (unitKey n u) else if n = 2 ∧ o = 2 then 1 else 0
  let w := n + 2 ^ 8 * o + 2 ^ 16 * u + 2 ^ 24 * (if o = 3 then reason % 256 else 0) + 2 ^ 32 * detail
  { m with jnow := m.jnow ++ [BitVec.ofNat 64 w, BitVec.ofNat 64 tc] }

/-- The failure of a step ends the start (26 R451). -/
def Mgmt.endsStart (m : Mgmt) (n : Nat) (os : List (Nat × Nat)) : Bool :=
  decide (n ≤ 4) && os.any (fun e => e.2 == 3) || (n == 6 && m.endpoint && os.any (fun e => e.1 == m.hport && e.2 == 3))

/-- A start that fails is counted, and after the second the next start uses the other slot (26 R451). -/
def Mgmt.startFailed (m : Mgmt) : Mgmt :=
  let n := Nat.min 3 (m.failsOf startKey + 1)
  { m with st := .startFail, fails := put m.fails startKey n, selected := if n = 2 then 1 - m.selected % 2 else m.selected }

/-- TC starts at 0 (26 R450), and with it every count of TC cycles that is under way. -/
def State.tcStarts (s : State) : State :=
  { s with tc := 0, hxd := { s.hxd with auditTc := 0 }, dies := s.dies.map (fun (e : Nat × Die) => (e.1, { e.2 with beat := 0 })) }

/-- The launch port block of a die (05 R81, 18 R348) and what CT_DIE shows of it (20 R396), cleared. -/
def Die.clearBlock (x : Die) : Die :=
  { x with seq := 0, monResult := 0, monitor := none, monDigest := [], wdlimit := Die.reset.wdlimit, wdsave := Die.reset.wdsave
           st := .live, fences := 0, corrected := 0, missed := 0, unheld := false, lost := false, refused := [] }

/-- The register block of an RBD (12 R254), and its corrected errors, which CT_DIE shows (20 R396), cleared. -/
def Stack.clearBlock (x : Stack) : Stack := { x with threshold := Stack.reset.threshold, alerts := 0, corrected := 0 }

/-- Every register block is cleared (26 R450 step 3). -/
def State.clearBlocks (s : State) : State :=
  { s with hxd := Hxd.reset, dies := s.dies.map (fun (e : Nat × Die) => (e.1, e.2.clearBlock)), stks := s.stks.map (fun (e : Nat × Stack) => (e.1, e.2.clearBlock)) }

/-- What a step of the start does to the package (26 R450): step 3 starts TC and clears every register block, step 4 clears the dead bits,
step 5 leaves every slice CACHE, step 7 every Salder port DOWN. With step 8 the host reaches the package (`State.hostUp`). -/
def State.bootAction (s : State) (n : Nat) : State :=
  match n with
  | 3 => s.clearBlocks.tcStarts
  | 4 => { s with stks := s.stks.map (fun (e : Nat × Stack) => (e.1, { e.2 with deadG := [] })) }
  | 5 => { s with clusters := s.clusters.map (fun (e : Nat × Cluster) => (e.1, { e.2 with slices := [] })) }
  | 7 => s.upHxd (fun h => { h with ports := [] })
  | _ => s

/-- BOOT_STEP_COMPLETE (26 R450, R451). -/
def State.bootStep (s : State) (n : Nat) (failed : List Nat) (reason : Nat) : State :=
  let m := s.mgmt
  let os := (stepUnits n).map (fun u => (u, m.outcome n u failed))
  let tc := if n = 3 then 0 else s.tc
  let m := os.foldl (fun m e => (m.count n e.1 e.2).journal n e.1 e.2 reason tc) m
  let s := s.bootAction n
  let m := if n = 3 then { m with clockTc := 0, powerSum := 0, powerTc := 0 }
    else if n = 6 then { m with pcieDown := (os.filter (fun e => e.2 != 0)).map Prod.fst }
    else m
  let s := if n = 5 then (os.filter (fun e => e.2 != 0)).foldl (fun s e => s.upDie e.1 (fun d => { d with st := .held })) s else s
  if m.endsStart n os then { s with mgmt := m.startFailed }
  else if 8 ≤ n then
    { s with mgmt := { m with st := .running, fails := del m.fails startKey
                              minVersion := Nat.max m.minVersion ((look m.fwVersion m.slot).getD 0) } }
  else { s with mgmt := { m with st := .starting (n + 1) } }

/-- BOOT_STEP_COMPLETE. -/
def execBootStepComplete (failed : List Nat) (reason : Nat) (s : State) : Host.Outcome State Fault Refusal :=
  .next (match s.mgmt.st with
    | .starting n => s.bootStep n failed reason
    | _ => s)

/-- A sensor word (26 R452). -/
def sensorWord (value : Nat) (valid : Bool) : Word := BitVec.ofNat 64 (value % 65536 + 2 ^ 16 * nb valid)

/-- What a sensor shows, where its last sample is valid (26 R452). -/
def State.sensed (s : State) (n : Nat) : Option Nat :=
  let w := ((look s.mgmt.sensors n).getD 0).toNat
  if bit w 16 then some (w % 65536) else none

/-- The package power up to this TC cycle goes into the sum that is averaged (26 R453). -/
def Mgmt.powered (m : Mgmt) (tc : Nat) : Mgmt := { m with powerSum := m.powerSum + m.power * (tc - m.powerTc), powerTc := tc }

/-- A trip (26 R453): power is gone from every die but the island, and only a cold reset leaves TRIPPED. -/
def State.trip (s : State) (unit : Nat) : State :=
  let s := (s.logEvent .trip unit).unpowered
  { s with mgmt := { s.mgmt with st := .tripped } }

/-- The module's input voltage as sensor 102 shows it, in units of 10 mV (26 R456): the bands of the DH64-MD. -/
def State.supplyAt (s : State) (value : Nat) : State :=
  let s := { s with mgmt := { s.mgmt with sensors := put s.mgmt.sensors 102 (sensorWord value true), limit := 0 } }
  if value < 4600 ∨ 6000 < value then s.trip 102
  else if value < 4800 then
    ({ s with mgmt := { s.mgmt with limit := 280 * value / 100 - 1000 } }).logEvent .lowSupply 102
  else if 5800 < value then s.logEvent .highSupply 102
  else s

/-- A valid sample acts where the rules act on the sensor (26 R452, R453, R456, 12 R254): the temperature of a die or of a stack's hottest
DRAM die, the package power, the module's input voltage. -/
def State.sampled (s : State) (n value : Nat) : State :=
  if n < 64 then s.upDie n (fun x => { x with temp := value % 65536 })
  else if n < 96 then s.upStack (n - 64) (fun x => { x with temp := value % 256 })
  else if n < 100 then s.upDie (n - 32) (fun x => { x with temp := value % 65536 })
  else if n = 101 then { s with mgmt := { s.mgmt.powered s.tc with power := value % 65536 } }
  else if n = 102 then s.supplyAt (value % 65536)
  else s

/-- SENSOR_SAMPLE (26 R452, 12 R254). A DH64-PK has no sensor 102, which reads invalid. -/
def execSensorSample (n value : Nat) (valid : Bool) (s : State) : Host.Outcome State Fault Refusal :=
  let valid := valid && (n != 102 || s.mgmt.md)
  .next (if 102 < n then s
    else
      let s := { s with mgmt := { s.mgmt with sensors := put s.mgmt.sensors n (sensorWord value valid) } }
      if valid then s.sampled n value else s)

/-- The power limit in force (26 R453, R456). -/
def Mgmt.powerLimit (m : Mgmt) : Nat := if m.limit = 0 then m.plimit else Nat.min m.plimit m.limit

/-- One die's clock takes a step (26 R453): down by 100 MHz to no less than 900 when it is hot or the package draws too much on average, up again
when it is below 95 °C and the power below the limit. -/
def State.clockDie (s : State) (power : Nat) (d : Nat) : State :=
  let x := s.die d
  let limit := s.mgmt.powerLimit
  if 100 ≤ x.temp ∨ limit < power then
    if x.mhz ≤ 900 then s else (s.upDie d (fun x => { x with mhz := x.mhz - 100 })).logEvent .lowered d
  else if x.temp < 95 ∧ power < limit ∧ x.mhz < 1800 then (s.upDie d (fun x => { x with mhz := x.mhz + 100 })).logEvent .raised d
  else s

/-- CLOCK_STEP (26 R453): every 1,800,000 TC cycles, on the package power averaged over them; TC is never lowered (01 R23). -/
def execClockStep (s : State) : Host.Outcome State Fault Refusal :=
  let n := s.tc - s.mgmt.clockTc
  .next (if n < 1_800_000 then s
    else
      let m := s.mgmt.powered s.tc
      (upFrom 0 64).foldl (fun t d => t.clockDie (m.powerSum / n) d) { s with mgmt := { m with clockTc := s.tc, powerSum := 0 } })

/-- Sensor of a die: CD0 to CD63, FD0 to FD3 from 64, the HXD as 68, and from 69 the hottest DRAM die of MS0 to MS31 (26 R452). -/
def dieSensor (d : Nat) : Nat := if d < 64 then d else if d < 68 then d + 32 else if d = 68 then 100 else d - 5

/-- THERMAL_TRIP (26 R453): a die has been sampled at 115 °C or more. -/
def execThermalTrip (die : Nat) (s : State) : Host.Outcome State Fault Refusal :=
  .next (if (s.sensed (dieSensor die)).any (fun t => decide (115 ≤ t)) then s.trip die else s)

/-- SUPPLY_EXCURSION (26 R456): the voltage, or a limit of the coolant that is broken, which the island logs. The rules are the DH64-MD's. -/
def execSupplyExcursion (x : Supply) (s : State) : Host.Outcome State Fault Refusal :=
  .next (if !s.mgmt.md then s else match x with
    | .voltage v => s.supplyAt v
    | .coolant n => s.logEvent .coolant n)

/-- Data of a command: the mailbox's first bytes (26 R454). -/
def Mgmt.data (m : Mgmt) (conn : Bool) : List Byte := (m.bufOf conn).take (fld (m.cmdOf conn).toNat 32 13)

/-- A mailbox is busy with a command of this code (26 R454). -/
def Mgmt.asks (m : Mgmt) (conn : Bool) (cmd : Nat) : Bool := m.busy conn && (m.cmdOf conn).toNat % 256 == cmd

/-- A command ends (26 R454): without an error, or with a code. -/
def Mgmt.finish (m : Mgmt) (conn : Bool) (cmd : Nat) (err : Option Nat) : Mgmt :=
  m.setCmd conn (mgCmd cmd (if err.isSome then 3 else 2) (err.getD 0) 0)

/-- The slot not running (26 R454). -/
def Mgmt.other (m : Mgmt) : Nat := 1 - m.slot % 2

/-- Largest image: 64 MiB (26 R454). -/
def imageMax : Nat := 67_108_864

/-- UPWRITE (26 R454). -/
def execUpwrite (conn : Bool) (s : State) : Host.Outcome State Fault Refusal :=
  let m := s.mgmt
  .next (if !m.asks conn 1 then s
    else if m.behind conn then s.owe (.upwrite conn)
    else
      let img := (look m.fwBytes m.other).getD [] ++ m.data conn
      if imageMax < img.length then { s with mgmt := m.finish conn 1 (some 1) }
      else { s with mgmt := { m with fwBytes := put m.fwBytes m.other img }.finish conn 1 none })

/-- UPCOMMIT (26 R454): whether the signature verifies, and the image's security version, come with the step (log 19). The other mailbox is
updating while its last command is UPWRITE (log 72). -/
def execUpcommit (conn signatureOk : Bool) (version : Nat) (s : State) : Host.Outcome State Fault Refusal :=
  let m := s.mgmt
  .next (if !m.asks conn 2 ∨ m.behind conn then s
    else if !signatureOk then { s with mgmt := m.finish conn 2 (some 2) }
    else if version < m.minVersion then { s with mgmt := m.finish conn 2 (some 3) }
    else if (m.cmdOf (!conn)).toNat % 256 = 1 then { s with mgmt := m.finish conn 2 (some 4) }
    else { s with mgmt := { m with selected := m.other, fwVersion := put m.fwVersion m.other version }.finish conn 2 none })

/-- Parts of a slot's firmware that run on the island, the HXD and the RBDs (26 R455). -/
def firmwareParts : List Nat := [1, 2, 3]

/-- What a report made now holds (26 R455): each firmware image's digest, that of the monitor installed on each compute die, MG_SLOT, every
CT_DIE word. -/
def State.reportOf (s : State) (nonce : List Byte) : Report where
  nonce := nonce
  firmware := firmwareParts.map (fun p => Config.digest p ((look s.mgmt.fwBytes s.mgmt.slot).getD []))
  monitors := (upFrom 0 64).map (fun d => (s.die d).monDigest)
  slot := s.mgmt.slotWord
  dies := (upFrom 0 68).map (fun d => s.containWord (0x100 + 8 * d))

/-- What a report holds, as a list of numbers. -/
def Report.words (r : Report) : List Nat :=
  r.nonce.map (fun (b : Byte) => b.toNat) ++ (r.firmware ++ r.monitors).flatMap (fun l => l.length :: l.map (fun (b : Byte) => b.toNat)) ++ r.slot :: r.dies

/-- ATTEST (26 R454, R455): the report of this moment, whose bytes in the mailbox follow from what it holds by free values (log 19). -/
def execAttest (conn : Bool) (s : State) : Host.Outcome State Fault Refusal :=
  let m := s.mgmt
  .next (if !m.asks conn 3 then s
    else if m.behind conn then s.owe (.attest conn)
    else if (m.data conn).length ≠ 32 then { s with mgmt := m.finish conn 3 (some 5) }
    else
      let r := s.reportOf (m.data conn)
      let m := m.setBuf conn ((upFrom 0 4096).map (Config.reportByte r.words m.reports))
      { s with mgmt := { m with reports := m.reports + 1, report := some r }.finish conn 3 none })

end Sys2Proof.Machine
end

