-- ==== Sys2Proof/Machine/Dispatch.lean ====
section
/-! DEFINITION. Dispatch.lean: the meaning of each instruction and of each step, by constructor. -/

namespace Sys2Proof.Machine

/-- The meaning of an instruction or step at a state. -/
def exec (i : Instr) (s : State) : Host.Outcome State Fault Refusal :=
  match i with
  | .bundleIssue => Sys2Proof.Machine.execBundleIssue s
  | .codeBufferFill x0 x1 => Sys2Proof.Machine.execCodeBufferFill x0 x1 s
  | .j x0 => Sys2Proof.Machine.execJ x0 s
  | .jf x0 x1 x2 => Sys2Proof.Machine.execJf x0 x1 x2 s
  | .jp x0 x1 x2 => Sys2Proof.Machine.execJp x0 x1 x2 s
  | .call x0 => Sys2Proof.Machine.execCall x0 s
  | .ret => Sys2Proof.Machine.execRet s
  | .loopImm x0 x1 => Sys2Proof.Machine.execLoopImm x0 x1 s
  | .loopReg x0 x1 => Sys2Proof.Machine.execLoopReg x0 x1 s
  | .lexit x0 x1 => Sys2Proof.Machine.execLexit x0 x1 s
  | .exit => Sys2Proof.Machine.execExit s
  | .waitt x0 => Sys2Proof.Machine.execWaitt x0 s
  | .waiteImm x0 => Sys2Proof.Machine.execWaiteImm x0 s
  | .waiteReg x0 => Sys2Proof.Machine.execWaiteReg x0 s
  | .waitc x0 x1 => Sys2Proof.Machine.execWaitc x0 x1 s
  | .trap x0 => Sys2Proof.Machine.execTrap x0 s
  | .rett => Sys2Proof.Machine.execRett s
  | .halt => Sys2Proof.Machine.execHalt s
  | .add x0 => Sys2Proof.Machine.execAdd x0 s
  | .sub x0 => Sys2Proof.Machine.execSub x0 s
  | .addi x0 => Sys2Proof.Machine.execAddi x0 s
  | .addsh x0 x1 => Sys2Proof.Machine.execAddsh x0 x1 s
  | .mul x0 => Sys2Proof.Machine.execMul x0 s
  | .mulh x0 => Sys2Proof.Machine.execMulh x0 s
  | .mulhn x0 => Sys2Proof.Machine.execMulhn x0 s
  | .and x0 => Sys2Proof.Machine.execAnd x0 s
  | .or x0 => Sys2Proof.Machine.execOr x0 s
  | .xor x0 => Sys2Proof.Machine.execXor x0 s
  | .andn x0 => Sys2Proof.Machine.execAndn x0 s
  | .shl x0 => Sys2Proof.Machine.execShl x0 s
  | .shr x0 => Sys2Proof.Machine.execShr x0 s
  | .shra x0 => Sys2Proof.Machine.execShra x0 s
  | .rotr x0 => Sys2Proof.Machine.execRotr x0 s
  | .min x0 => Sys2Proof.Machine.execMin x0 s
  | .max x0 => Sys2Proof.Machine.execMax x0 s
  | .minn x0 => Sys2Proof.Machine.execMinn x0 s
  | .maxn x0 => Sys2Proof.Machine.execMaxn x0 s
  | .clz x0 => Sys2Proof.Machine.execClz x0 s
  | .ctz x0 => Sys2Proof.Machine.execCtz x0 s
  | .popc x0 => Sys2Proof.Machine.execPopc x0 s
  | .sext x0 x1 => Sys2Proof.Machine.execSext x0 x1 s
  | .zext x0 x1 => Sys2Proof.Machine.execZext x0 x1 s
  | .li x0 x1 => Sys2Proof.Machine.execLi x0 x1 s
  | .lih x0 => Sys2Proof.Machine.execLih x0 s
  | .mov x0 => Sys2Proof.Machine.execMov x0 s
  | .sel x0 x1 => Sys2Proof.Machine.execSel x0 x1 s
  | .cmp x0 x1 x2 x3 x4 x5 => Sys2Proof.Machine.execCmp x0 x1 x2 x3 x4 x5 s
  | .rdix x0 x1 => Sys2Proof.Machine.execRdix x0 x1 s
  | .rdtc x0 => Sys2Proof.Machine.execRdtc x0 s
  | .myxy x0 x1 => Sys2Proof.Machine.execMyxy x0 x1 s
  | .rdsys x0 x1 => Sys2Proof.Machine.execRdsys x0 x1 s
  | .wrsys x0 x1 x2 => Sys2Proof.Machine.execWrsys x0 x1 x2 s
  | .tfld x0 x1 x2 => Sys2Proof.Machine.execTfld x0 x1 x2 s
  | .tfst x0 x1 x2 => Sys2Proof.Machine.execTfst x0 x1 x2 s
  | .vadd x0 => Sys2Proof.Machine.execVadd x0 s
  | .vsub x0 => Sys2Proof.Machine.execVsub x0 s
  | .vmul x0 => Sys2Proof.Machine.execVmul x0 s
  | .vfma x0 => Sys2Proof.Machine.execVfma x0 s
  | .vfms x0 => Sys2Proof.Machine.execVfms x0 s
  | .vfnma x0 => Sys2Proof.Machine.execVfnma x0 s
  | .vmin x0 x1 => Sys2Proof.Machine.execVmin x0 x1 s
  | .vmax x0 x1 => Sys2Proof.Machine.execVmax x0 x1 s
  | .vabs x0 => Sys2Proof.Machine.execVabs x0 s
  | .vneg x0 => Sys2Proof.Machine.execVneg x0 s
  | .vrcp x0 => Sys2Proof.Machine.execVrcp x0 s
  | .vrsq x0 => Sys2Proof.Machine.execVrsq x0 s
  | .vsqrt x0 x1 => Sys2Proof.Machine.execVsqrt x0 x1 s
  | .vexp2 x0 => Sys2Proof.Machine.execVexp2 x0 s
  | .vlog2 x0 => Sys2Proof.Machine.execVlog2 x0 s
  | .vsigm x0 => Sys2Proof.Machine.execVsigm x0 s
  | .vtanh x0 => Sys2Proof.Machine.execVtanh x0 s
  | .vfcls x0 => Sys2Proof.Machine.execVfcls x0 s
  | .vcvt x0 x1 x2 => Sys2Proof.Machine.execVcvt x0 x1 x2 s
  | .vqnt x0 => Sys2Proof.Machine.execVqnt x0 s
  | .vdqnt x0 => Sys2Proof.Machine.execVdqnt x0 s
  | .vsrnd x0 => Sys2Proof.Machine.execVsrnd x0 s
  | .vamax x0 x1 x2 => Sys2Proof.Machine.execVamax x0 x1 x2 s
  | .vmomq x0 x1 x2 => Sys2Proof.Machine.execVmomq x0 x1 x2 s
  | .vmomd x0 x1 x2 x3 => Sys2Proof.Machine.execVmomd x0 x1 x2 x3 s
  | .vrand x0 x1 => Sys2Proof.Machine.execVrand x0 x1 s
  | .viadd x0 x1 => Sys2Proof.Machine.execViadd x0 x1 s
  | .visub x0 x1 => Sys2Proof.Machine.execVisub x0 x1 s
  | .vimul x0 x1 => Sys2Proof.Machine.execVimul x0 x1 s
  | .vimac x0 x1 => Sys2Proof.Machine.execVimac x0 x1 s
  | .vand x0 x1 x2 => Sys2Proof.Machine.execVand x0 x1 x2 s
  | .vor x0 x1 x2 => Sys2Proof.Machine.execVor x0 x1 x2 s
  | .vxor x0 x1 x2 => Sys2Proof.Machine.execVxor x0 x1 x2 s
  | .vshl x0 x1 => Sys2Proof.Machine.execVshl x0 x1 s
  | .vshr x0 x1 => Sys2Proof.Machine.execVshr x0 x1 s
  | .vshra x0 x1 => Sys2Proof.Machine.execVshra x0 x1 s
  | .vimin x0 => Sys2Proof.Machine.execVimin x0 s
  | .vimax x0 => Sys2Proof.Machine.execVimax x0 s
  | .vcmp x0 x1 x2 x3 x4 x5 x6 x7 => Sys2Proof.Machine.execVcmp x0 x1 x2 x3 x4 x5 x6 x7 s
  | .vsel x0 x1 x2 => Sys2Proof.Machine.execVsel x0 x1 x2 s
  | .vmov x0 x1 => Sys2Proof.Machine.execVmov x0 x1 s
  | .vbcst x0 x1 x2 => Sys2Proof.Machine.execVbcst x0 x1 x2 s
  | .vsplt x0 => Sys2Proof.Machine.execVsplt x0 s
  | .vperm x0 x1 x2 => Sys2Proof.Machine.execVperm x0 x1 x2 s
  | .vrotl x0 => Sys2Proof.Machine.execVrotl x0 s
  | .vpack x0 x1 => Sys2Proof.Machine.execVpack x0 x1 s
  | .vunpk x0 x1 => Sys2Proof.Machine.execVunpk x0 x1 s
  | .vextr x0 x1 x2 x3 x4 x5 => Sys2Proof.Machine.execVextr x0 x1 x2 x3 x4 x5 s
  | .vins x0 x1 x2 x3 => Sys2Proof.Machine.execVins x0 x1 x2 x3 s
  | .vrsum x0 => Sys2Proof.Machine.execVrsum x0 s
  | .vrmax x0 => Sys2Proof.Machine.execVrmax x0 s
  | .vrmin x0 => Sys2Proof.Machine.execVrmin x0 s
  | .vscan x0 => Sys2Proof.Machine.execVscan x0 s
  | .pand x0 => Sys2Proof.Machine.execPand x0 s
  | .por x0 => Sys2Proof.Machine.execPor x0 s
  | .pxor x0 => Sys2Proof.Machine.execPxor x0 s
  | .pnot x0 x1 x2 x3 x4 => Sys2Proof.Machine.execPnot x0 x1 x2 x3 x4 s
  | .pset x0 x1 x2 x3 x4 x5 => Sys2Proof.Machine.execPset x0 x1 x2 x3 x4 x5 s
  | .pcnt x0 x1 x2 x3 => Sys2Proof.Machine.execPcnt x0 x1 x2 x3 s
  | .pany x0 x1 x2 x3 => Sys2Proof.Machine.execPany x0 x1 x2 x3 s
  | .pall x0 x1 x2 x3 => Sys2Proof.Machine.execPall x0 x1 x2 x3 s
  | .mma x0 => Sys2Proof.Machine.execMma x0 s
  | .mmal x0 => Sys2Proof.Machine.execMmal x0 s
  | .azero x0 x1 => Sys2Proof.Machine.execAzero x0 x1 s
  | .anorm x0 x1 => Sys2Proof.Machine.execAnorm x0 x1 s
  | .ard x0 x1 x2 x3 => Sys2Proof.Machine.execArd x0 x1 x2 x3 s
  | .awr x0 x1 x2 x3 => Sys2Proof.Machine.execAwr x0 x1 x2 x3 s
  | .aalloc x0 x1 => Sys2Proof.Machine.execAalloc x0 x1 s
  | .afree x0 x1 => Sys2Proof.Machine.execAfree x0 x1 s
  | .astat x0 => Sys2Proof.Machine.execAstat x0 s
  | .ld x0 => Sys2Proof.Machine.execLd x0 s
  | .st x0 => Sys2Proof.Machine.execSt x0 s
  | .vld x0 => Sys2Proof.Machine.execVld x0 s
  | .vst x0 => Sys2Proof.Machine.execVst x0 s
  | .vlds x0 => Sys2Proof.Machine.execVlds x0 s
  | .vsts x0 => Sys2Proof.Machine.execVsts x0 s
  | .spl x0 x1 => Sys2Proof.Machine.execSpl x0 x1 s
  | .sps x0 x1 => Sys2Proof.Machine.execSps x0 x1 s
  | .gld x0 => Sys2Proof.Machine.execGld x0 s
  | .gst x0 => Sys2Proof.Machine.execGst x0 s
  | .ldx x0 x1 x2 x3 => Sys2Proof.Machine.execLdx x0 x1 x2 x3 s
  | .gacc x0 x1 x2 => Sys2Proof.Machine.execGacc x0 x1 x2 s
  | .atadd x0 => Sys2Proof.Machine.execAtadd x0 s
  | .atmin x0 => Sys2Proof.Machine.execAtmin x0 s
  | .atmax x0 => Sys2Proof.Machine.execAtmax x0 s
  | .atcas x0 => Sys2Proof.Machine.execAtcas x0 s
  | .atswp x0 => Sys2Proof.Machine.execAtswp x0 s
  | .phase x0 => Sys2Proof.Machine.execPhase x0 s
  | .fence x0 x1 => Sys2Proof.Machine.execFence x0 x1 s
  | .bkld x0 x1 => Sys2Proof.Machine.execBkld x0 x1 s
  | .bkst x0 x1 => Sys2Proof.Machine.execBkst x0 x1 s
  | .ctld x0 => Sys2Proof.Machine.execCtld x0 s
  | .cpy x0 x1 x2 x3 => Sys2Proof.Machine.execCpy x0 x1 x2 x3 s
  | .cpys x0 x1 x2 x3 => Sys2Proof.Machine.execCpys x0 x1 x2 x3 s
  | .slset x0 x1 => Sys2Proof.Machine.execSlset x0 x1 s
  | .sladv x0 x1 x2 => Sys2Proof.Machine.execSladv x0 x1 x2 s
  | .gth x0 x1 x2 x3 x4 => Sys2Proof.Machine.execGth x0 x1 x2 x3 x4 s
  | .slmode x0 x1 => Sys2Proof.Machine.execSlmode x0 x1 s
  | .cntx x0 x1 => Sys2Proof.Machine.execCntx x0 x1 s
  | .cnta x0 x1 => Sys2Proof.Machine.execCnta x0 x1 s
  | .evsig x0 x1 x2 => Sys2Proof.Machine.execEvsig x0 x1 x2 s
  | .jraise x0 x1 => Sys2Proof.Machine.execJraise x0 x1 s
  | .jdone x0 => Sys2Proof.Machine.execJdone x0 s
  | .jflag x0 x1 => Sys2Proof.Machine.execJflag x0 x1 s
  | .lnch x0 => Sys2Proof.Machine.execLnch x0 s
  | .cancel x0 => Sys2Proof.Machine.execCancel x0 s
  | .tagnew x0 x1 x2 => Sys2Proof.Machine.execTagnew x0 x1 x2 s
  | .tagret x0 => Sys2Proof.Machine.execTagret x0 s
  | .tagq x0 x1 => Sys2Proof.Machine.execTagq x0 x1 s
  | .bkdef x0 x1 => Sys2Proof.Machine.execBkdef x0 x1 s
  | .bkdone x0 => Sys2Proof.Machine.execBkdone x0 s
  | .push x0 x1 x2 x3 => Sys2Proof.Machine.execPush x0 x1 x2 x3 s
  | .stitchPoint x0 => Sys2Proof.Machine.execStitchPoint x0 s
  | .weakStoreFault x0 x1 => Sys2Proof.Machine.execWeakStoreFault x0 x1 s
  | .taskExitComplete x0 => Sys2Proof.Machine.execTaskExitComplete x0 s
  | .taskStart x0 => Sys2Proof.Machine.execTaskStart x0 s
  | .waittWake x0 => Sys2Proof.Machine.execWaittWake x0 s
  | .phaseComplete x0 => Sys2Proof.Machine.execPhaseComplete x0 s
  | .fenceComplete x0 => Sys2Proof.Machine.execFenceComplete x0 s
  | .sliceSwitchPoint x0 => Sys2Proof.Machine.execSliceSwitchPoint x0 s
  | .globalReadRequest x0 => Sys2Proof.Machine.execGlobalReadRequest x0 s
  | .globalWriteRequest x0 => Sys2Proof.Machine.execGlobalWriteRequest x0 s
  | .atomicPerform x0 => Sys2Proof.Machine.execAtomicPerform x0 s
  | .storeAck x0 => Sys2Proof.Machine.execStoreAck x0 s
  | .loadDataReturn x0 => Sys2Proof.Machine.execLoadDataReturn x0 s
  | .lineRecall x0 x1 => Sys2Proof.Machine.execLineRecall x0 x1 s
  | .atsTranslationReply x0 x1 => Sys2Proof.Machine.execAtsTranslationReply x0 x1 s
  | .atsInvalidationRequest x0 x1 => Sys2Proof.Machine.execAtsInvalidationRequest x0 x1 s
  | .pageRequestResponse x0 x1 => Sys2Proof.Machine.execPageRequestResponse x0 x1 s
  | .copyComplete x0 => Sys2Proof.Machine.execCopyComplete x0 s
  | .sleeveFillComplete x0 => Sys2Proof.Machine.execSleeveFillComplete x0 s
  | .gatherRequest x0 => Sys2Proof.Machine.execGatherRequest x0 s
  | .gatherComplete x0 => Sys2Proof.Machine.execGatherComplete x0 s
  | .engineRequestFault x0 x1 => Sys2Proof.Machine.execEngineRequestFault x0 x1 s
  | .promiseExpiry x0 => Sys2Proof.Machine.execPromiseExpiry x0 s
  | .counterPost x0 => Sys2Proof.Machine.execCounterPost x0 s
  | .counterArrive x0 => Sys2Proof.Machine.execCounterArrive x0 s
  | .overarrNotice x0 x1 => Sys2Proof.Machine.execOverarrNotice x0 x1 s
  | .eventArrival x0 x1 => Sys2Proof.Machine.execEventArrival x0 x1 s
  | .jcbCompletion x0 => Sys2Proof.Machine.execJcbCompletion x0 s
  | .jcbRaise x0 => Sys2Proof.Machine.execJcbRaise x0 s
  | .jcbFlag x0 => Sys2Proof.Machine.execJcbFlag x0 s
  | .lpSubmit x0 x1 => Sys2Proof.Machine.execLpSubmit x0 x1 s
  | .launchAcceptance x0 => Sys2Proof.Machine.execLaunchAcceptance x0 s
  | .submissionRelease => Sys2Proof.Machine.execSubmissionRelease s
  | .lpCancel x0 x1 => Sys2Proof.Machine.execLpCancel x0 x1 s
  | .cancelPoint x0 => Sys2Proof.Machine.execCancelPoint x0 s
  | .cancelTimeout x0 => Sys2Proof.Machine.execCancelTimeout x0 s
  | .agingPromote x0 => Sys2Proof.Machine.execAgingPromote x0 s
  | .placementPass => Sys2Proof.Machine.execPlacementPass s
  | .launchStart x0 => Sys2Proof.Machine.execLaunchStart x0 s
  | .dynRangeRequest x0 => Sys2Proof.Machine.execDynRangeRequest x0 s
  | .pointFinish x0 x1 => Sys2Proof.Machine.execPointFinish x0 x1 s
  | .launchComplete x0 => Sys2Proof.Machine.execLaunchComplete x0 s
  | .tagnewRequest x0 => Sys2Proof.Machine.execTagnewRequest x0 s
  | .tagnewAnswer x0 x1 => Sys2Proof.Machine.execTagnewAnswer x0 x1 s
  | .tagretApply x0 => Sys2Proof.Machine.execTagretApply x0 s
  | .tagKill x0 x1 x2 => Sys2Proof.Machine.execTagKill x0 x1 x2 s
  | .tagDrain x0 x1 => Sys2Proof.Machine.execTagDrain x0 x1 s
  | .tagFree x0 => Sys2Proof.Machine.execTagFree x0 s
  | .tagqAnswer x0 => Sys2Proof.Machine.execTagqAnswer x0 s
  | .bkdefRequest x0 => Sys2Proof.Machine.execBkdefRequest x0 s
  | .gaccArrival x0 => Sys2Proof.Machine.execGaccArrival x0 s
  | .gaccRetryResend x0 => Sys2Proof.Machine.execGaccRetryResend x0 s
  | .nfNotice x0 x1 => Sys2Proof.Machine.execNfNotice x0 x1 s
  | .shareStart x0 => Sys2Proof.Machine.execShareStart x0 s
  | .copyOutComplete x0 x1 => Sys2Proof.Machine.execCopyOutComplete x0 x1 s
  | .pushArrival x0 => Sys2Proof.Machine.execPushArrival x0 s
  | .monitorFreeze x0 => Sys2Proof.Machine.execMonitorFreeze x0 s
  | .rewind x0 x1 => Sys2Proof.Machine.execRewind x0 x1 s
  | .switchOut x0 => Sys2Proof.Machine.execSwitchOut x0 s
  | .clusterSave x0 x1 => Sys2Proof.Machine.execClusterSave x0 x1 s
  | .contextRestore x0 => Sys2Proof.Machine.execContextRestore x0 s
  | .saveTimeout x0 => Sys2Proof.Machine.execSaveTimeout x0 s
  | .hangTimeout x0 => Sys2Proof.Machine.execHangTimeout x0 s
  | .trapRecordWrite x0 => Sys2Proof.Machine.execTrapRecordWrite x0 s
  | .trDoneWrite x0 x1 => Sys2Proof.Machine.execTrDoneWrite x0 x1 s
  | .lpMonimg x0 x1 => Sys2Proof.Machine.execLpMonimg x0 x1 s
  | .fwEnable x0 x1 => Sys2Proof.Machine.execFwEnable x0 x1 s
  | .fwDisable x0 x1 => Sys2Proof.Machine.execFwDisable x0 x1 s
  | .sptEnable x0 x1 => Sys2Proof.Machine.execSptEnable x0 x1 s
  | .sptDisable x0 x1 => Sys2Proof.Machine.execSptDisable x0 x1 s
  | .rbDead x0 x1 => Sys2Proof.Machine.execRbDead x0 x1 s
  | .rbBkrel x0 x1 => Sys2Proof.Machine.execRbBkrel x0 x1 s
  | .refresh x0 x1 x2 x3 => Sys2Proof.Machine.execRefresh x0 x1 x2 x3 s
  | .activationAlert x0 x1 x2 x3 => Sys2Proof.Machine.execActivationAlert x0 x1 x2 x3 s
  | .alertBankReopen x0 x1 x2 => Sys2Proof.Machine.execAlertBankReopen x0 x1 x2 s
  | .rbdWarm x0 x1 => Sys2Proof.Machine.execRbdWarm x0 x1 s
  | .rbdNormal x0 x1 => Sys2Proof.Machine.execRbdNormal x0 x1 s
  | .rbdDraining x0 x1 => Sys2Proof.Machine.execRbdDraining x0 x1 s
  | .rbdSelfref x0 => Sys2Proof.Machine.execRbdSelfref x0 s
  | .rbdSelfrefExit x0 x1 => Sys2Proof.Machine.execRbdSelfrefExit x0 x1 s
  | .uncorrectableError x0 => Sys2Proof.Machine.execUncorrectableError x0 s
  | .correctedError x0 => Sys2Proof.Machine.execCorrectedError x0 s
  | .heartbeat x0 => Sys2Proof.Machine.execHeartbeat x0 s
  | .heartbeatMiss x0 => Sys2Proof.Machine.execHeartbeatMiss x0 s
  | .ctFenceFence x0 => Sys2Proof.Machine.execCtFenceFence x0 s
  | .ctFenceClearHold x0 => Sys2Proof.Machine.execCtFenceClearHold x0 s
  | .dieFence x0 x1 => Sys2Proof.Machine.execDieFence x0 x1 s
  | .dieQuiesced x0 => Sys2Proof.Machine.execDieQuiesced x0 s
  | .dieSalvaged x0 x1 => Sys2Proof.Machine.execDieSalvaged x0 x1 s
  | .dieReadmit x0 x1 => Sys2Proof.Machine.execDieReadmit x0 x1 s
  | .rbdReset x0 x1 => Sys2Proof.Machine.execRbdReset x0 x1 s
  | .packageFail x0 => Sys2Proof.Machine.execPackageFail x0 s
  | .permitAudit x0 => Sys2Proof.Machine.execPermitAudit x0 s
  | .salderPortEnable x0 => Sys2Proof.Machine.execSalderPortEnable x0 s
  | .salderPortDisable x0 => Sys2Proof.Machine.execSalderPortDisable x0 s
  | .salderPortForget x0 => Sys2Proof.Machine.execSalderPortForget x0 s
  | .portTrained x0 x1 x2 => Sys2Proof.Machine.execPortTrained x0 x1 x2 s
  | .portDown x0 => Sys2Proof.Machine.execPortDown x0 s
  | .flitReplay x0 => Sys2Proof.Machine.execFlitReplay x0 s
  | .coldReset x0 x1 => Sys2Proof.Machine.execColdReset x0 x1 s
  | .bootStepComplete x0 x1 => Sys2Proof.Machine.execBootStepComplete x0 x1 s
  | .sensorSample x0 x1 x2 => Sys2Proof.Machine.execSensorSample x0 x1 x2 s
  | .clockStep => Sys2Proof.Machine.execClockStep s
  | .thermalTrip x0 => Sys2Proof.Machine.execThermalTrip x0 s
  | .supplyExcursion x0 => Sys2Proof.Machine.execSupplyExcursion x0 s
  | .upwrite x0 => Sys2Proof.Machine.execUpwrite x0 s
  | .upcommit x0 x1 x2 => Sys2Proof.Machine.execUpcommit x0 x1 x2 s
  | .attest x0 => Sys2Proof.Machine.execAttest x0 s
  | .registerWrite x0 x1 x2 x3 x4 => Sys2Proof.Machine.execRegisterWrite x0 x1 x2 x3 x4 s
  | .tgaLimitWrite x0 => Sys2Proof.Machine.execTgaLimitWrite x0 s
  | .trCtlWrite x0 x1 => Sys2Proof.Machine.execTrCtlWrite x0 x1 s
  | .rbdResetResume x0 => Sys2Proof.Machine.execRbdResetResume x0 s

end Sys2Proof.Machine
end

