-- ==== Sys2Proof/Machine/Step.lean ====
section
/-! DEFINITION. Step.lean: one step of the package (log 1): the next step that the outside has placed on the agenda; without one, in turn
the oldest step that the hardware owes and a core cycle. -/

namespace Sys2Proof.Machine

/-- One step. An entry of the agenda that names a place the package does not have, or a slot instruction, which issues only in a bundle (07
R133), asks for nothing and is passed over (log 1). -/
def step (s : State) : Host.Outcome State Fault Refusal :=
  match s.agenda with
  | i :: rest =>
    if (slotOf i).isNone ∧ placeOk i then exec i { s with agenda := rest }
    else .next { s with agenda := rest }
  | [] =>
    if s.turn then
      match s.inflight with
      | i :: rest => exec i { s with inflight := rest, turn := false }
      | [] => exec .bundleIssue { s with turn := false }
    else exec .bundleIssue { s with turn := true }

/-- The state in which the next step fetches and runs the branch instruction w, alone in its bundle (log 2): the opcode table gives bits to
branch slots only. -/
def State.withFetchWord (s : State) (nbits w : Nat) : State := s.placeWord (w % 2 ^ nbits)

end Sys2Proof.Machine
end

