-- ==== Sys2Proof/Safety.lean ====
section
/-! DEFINITION. Safety.lean: what counts as a safe run, and the terms in which claims are stated. -/

namespace Sys2Proof.Machine

/-- The agenda names only steps that the outside may place, at places that the package has (log 1). -/
def AgendaOk (s : State) : Prop := ∀ i ∈ s.agenda, slotOf i = none ∧ placeOk i = true

/-- A step is safe when it goes on: it ends neither in a fault nor in a refusal. -/
def Goes (s : State) : Prop := ∃ t, step s = .next t

/-- A run of n steps is safe. -/
def SafeRun (n : Nat) (s : State) : Prop := ∃ t, Sys2Proof.core.run n s = .next t

/-- The byte memories of a core have their canonical form. -/
def Core.memOk (k : Core) : Prop := k.spill.wf = true ∧ k.local_.wf = true

/-- Those of a follower, in its own state and in its leader's that it has still to follow. -/
def Follower.memOk (f : Follower) : Prop := f.k.memOk ∧ ∀ k ∈ f.lag, k.memOk

/-- Every byte memory of the state has its canonical form: ordinary memory, the spill memory and local store of every core, of every
follower and of every context in a save slot, the scratch of every cluster. -/
def MemOk (s : State) : Prop :=
  s.mem.wf = true ∧ (∀ e ∈ s.cores, e.2.memOk) ∧ (∀ e ∈ s.clusters, e.2.mem.wf = true) ∧ (∀ e ∈ s.saved, e.2.k.memOk) ∧
    ∀ e ∈ s.followers, e.2.memOk

/-- Nothing of the package has changed but the core whose bundle issues. -/
def OnlyMe (s t : State) : Prop := ∃ k, t = s.setMe k

/-- The cores of the package are as they were, but that a counter which a write has brought to hold has released the waits on it (16 R313). -/
def OnlyWaits (s t : State) : Prop := ∀ c, t.core c = { s.core c with waitCame := (t.core c).waitCame, came := (t.core c).came }

/-- No context in a save slot waits for a counter, which a write could bring to hold (18 R365 kind 1). -/
def NoSavedWaits (s : State) : Prop := ∀ e ∈ s.saved, e.2.k.phase ≠ .table ∧ ∀ va pa fd, e.2.k.phase ≠ .sleep (.ctr va pa fd)

/-- A slot has only queued what its bundle does to the core: every register, flag, stack, accumulator, special register and byte of spill
memory is as before (07 R133, R135). On a pair it may note that its result differs on the follower (07 R151). -/
def OnlyQueued (k k' : Core) : Prop :=
  k' = { k with pend := k'.pend, seq := k'.seq, bound := k'.bound, pairBad := k'.pairBad } ∧ (k.paired = false → k'.pairBad = k.pairBad)

/-- Every byte of memory, of every cluster's scratch and of every core's spill reads as before. -/
def SameMemory (s t : State) : Prop :=
  (∀ a, t.mem.get a = s.mem.get a) ∧ (∀ n a, (t.cluster n).mem.get a = (s.cluster n).mem.get a)
    ∧ ∀ c a, (t.core c).spill.get a = (s.core c).spill.get a

/-- The registers of two cores that instructions read and write directly, and their control state, agree. -/
def SameRegs (k k' : Core) : Prop :=
  k'.s = k.s ∧ k'.v = k.v ∧ k'.p = k.p ∧ k'.f = k.f ∧ k'.k = k.k ∧ k'.flags = k.flags ∧ k'.banks = k.banks ∧
  k'.loops = k.loops ∧ k'.ras = k.ras ∧ k'.seed0 = k.seed0 ∧ k'.seed1 = k.seed1 ∧ k'.mask = k.mask ∧ k'.ev = k.ev ∧
  k'.cause = k.cause ∧ k'.tfbase = k.tfbase ∧ k'.pos = k.pos ∧ k'.alloc = k.alloc

/-- What the branch slot of a bundle at position h, whose successor in the stream is n, does once the bundle's other slots have issued
(07 R142, 08 R157). -/
def afterBranch (s : State) (h n : Nat) (x : Code) : State := s.endBranch s.cur h n x s.me.br

/-- A core with nothing due before its bundle: it runs, holds no cause, waits for nothing and is being neither cancelled nor
switched out. -/
def Quiet (k : Core) : Prop :=
  k.phase = .run ∧ k.op = none ∧ k.await = [] ∧ k.release = 0 ∧ k.out = .no ∧ k.causes = [] ∧ k.pend = [] ∧ k.bpend = [] ∧ k.mx = [] ∧
  k.loopDue = false ∧ k.stopNext = false ∧ k.cancelTc = none ∧ k.pairBad = none

/-- Two vector sources of a slot read as x and y, and its lane predicate as p. -/
def Reads2 (s : State) (h : VHead) (a b : VSrc) (x y : Vec) (p : BitVec 32) : Prop :=
  s.rdVSrc (vIx h.side + 1) a = .ok x ∧ s.rdVSrc (vIx h.side + 2) b = .ok y ∧ s.rdP (vIx h.side + 3) h.p.toNat = .ok p

/-- One vector source of a slot reads as x, and its lane predicate as p. -/
def Reads1 (s : State) (h : VHead) (a : VSrc) (x : Vec) (p : BitVec 32) : Prop :=
  s.rdVSrc (vIx h.side + 1) a = .ok x ∧ s.rdP (vIx h.side + 3) h.p.toNat = .ok p

/-- What a vector slot answers: elements of width w made by f in the enabled lanes, those of `old` in the others, of latency `lat`. -/
def vGives (s : State) (h : VHead) (lat w : Nat) (marks : List Nat) (p : BitVec 32) (old : Vec) (f : Nat → Nat × Flags) :
    Host.Outcome State Fault Refusal :=
  .next (s.giveV h lat marks (mapElems w p old f))

/-- Instructions of the vector slots. -/
def isVector (i : Instr) : Bool :=
  match slotOf i with
  | some 3 | some 4 => true
  | _ => false

/-- Instructions of the scalar slots. -/
def isScalar (i : Instr) : Bool :=
  match i with
  | .add _ | .sub _ | .addi _ | .addsh _ _ | .mul _ | .mulh _ | .mulhn _ | .and _ | .or _ | .xor _ | .andn _ | .shl _ | .shr _ | .shra _
  | .rotr _ | .min _ | .max _ | .minn _ | .maxn _ | .clz _ | .ctz _ | .popc _ | .sext _ _ | .zext _ _ | .li _ _ | .lih _ | .mov _
  | .sel _ _ | .cmp _ _ _ _ _ _ | .rdix _ _ | .rdtc _ | .myxy _ _ | .rdsys _ _ | .wrsys _ _ _ | .tfld _ _ _ | .tfst _ _ _ => true
  | _ => false

/-- The bytes a to a + n - 1 of a cluster's scratch window all lie in slices of mode SCRATCH (11 R240). -/
def InScratch (k : Cluster) (a n : Nat) : Prop := ∀ i, i < n → a + i < 0x180_0000 ∧ (k.slice ((a + i) / 786432)).mode = .scratch

/-- Bytes that the core whose bundle issues may access as scratch: its cluster's (11 R240), or an NMV core's local store (13 R267). -/
def ScratchOk (s : State) (a n : Nat) : Prop :=
  (isNmv s.cur = true → a + n ≤ 0x40000) ∧ (isNmv s.cur = false → InScratch (s.cluster (coreCluster s.cur)) a n)

/-- The return queue has room (18 R342). -/
def RqRoom (k : Core) : Prop := (k.pend.filter (fun p => p.rq)).length < 40

/-- A result that a load of the core whose bundle issues queues, of a latency, for a register and K4 (13 R262); the monitor's reach no latch
(18 R349). -/
def loadResult (k : Core) (lat : Nat) (dest : Dest) (val : Vec) (st : RqSt) : Pend :=
  ⟨k.ic + lat, k.ic, k.seq, dest, val, if k.mon.isSome then none else some 4, 0, false, st, 0⟩

/-- A result of the return queue whose data are still to come (18 R342). -/
def queuedResult (k : Core) (dest : Dest) (latch : Option (BitVec 3)) (va : Word) : Pend :=
  ⟨k.ic + 40, k.ic, k.seq, dest, 0, latch, 0, true, .wait, va⟩

end Sys2Proof.Machine
end

