-- ==== Sys2Proof/Certificates/Slice0/Obligations.lean ====
section
/-! DEFINITION. Obligations.lean: the statements about the model. Where a statement rests on a choice of the model's, its text names the
log entry. -/

open Sys2Proof Sys2Proof.Machine

/-- 06 R109, R117, R119, R121, 07 R136, R140, 20 R379: what reading a scalar, vector, predicate and flag register and a latch gives. The
undefined value of a dead register or a stale latch is a free value of the model (log 7), and of a register both pending and dead EARLY
traps first (log 104). -/
def Obligations.RegisterReads : Prop := ∀ (s : State) (ix n : Nat),
  s.rdS ix 0 = .ok 0 ∧ s.rdP ix 0 = .ok 0xFFFF_FFFF ∧ s.rdF ix 0 = .ok true ∧
  (n ≠ 0 → codeS n ∉ s.me.bad → (s.me.strictNow = false ∨ s.me.pendingReg (codeS n) = false) → codeS n ∉ s.me.dead →
    s.rdS ix n = .ok (s.me.sreg n)) ∧
  (codeV n ∉ s.me.bad → (s.me.strictNow = false ∨ s.me.pendingReg (codeV n) = false) → codeV n ∉ s.me.dead →
    s.rdV ix n = .ok (s.me.vreg n)) ∧
  (n ≠ 0 → codeP n ∉ s.me.bad → (s.me.strictNow = false ∨ s.me.pendingReg (codeP n) = false) → codeP n ∉ s.me.dead →
    s.rdP ix n = .ok (s.me.preg n)) ∧
  (n ≠ 0 → codeF n ∉ s.me.bad → (s.me.strictNow = false ∨ s.me.pendingReg (codeF n) = false) → codeF n ∉ s.me.dead →
    s.rdF ix n = .ok (s.me.freg n)) ∧
  (let checks (code : Nat) (lost early gone open_ : Prop) : Prop :=
     (code ∈ s.me.bad → lost) ∧
     (code ∉ s.me.bad → s.me.strictNow = true → s.me.pendingReg code = true → early) ∧
     (code ∉ s.me.bad → s.me.strictNow = true → s.me.pendingReg code = false → code ∈ s.me.dead → gone) ∧
     (code ∉ s.me.bad → s.me.strictNow = false → code ∈ s.me.dead → open_)
   (n ≠ 0 → checks (codeS n) (s.rdS ix n = .error (.rewind 0)) (s.rdS ix n = trapD .early (codeS n)) (s.rdS ix n = trapD .deadreg (codeS n))
     (s.rdS ix n = .ok (Config.freeWord (s.freeIx ix)))) ∧
   checks (codeV n) (s.rdV ix n = .error (.rewind 0)) (s.rdV ix n = trapD .early (codeV n)) (s.rdV ix n = trapD .deadreg (codeV n))
     (s.rdV ix n = .ok (Config.freeVec (s.freeIx ix))) ∧
   (n ≠ 0 → checks (codeP n) (s.rdP ix n = .error (.rewind 0)) (s.rdP ix n = trapD .early (codeP n)) (s.rdP ix n = trapD .deadreg (codeP n))
     (s.rdP ix n = .ok (Config.freePred (s.freeIx ix)))) ∧
   (n ≠ 0 → checks (codeF n) (s.rdF ix n = .error (.rewind 0)) (s.rdF ix n = trapD .early (codeF n)) (s.rdF ix n = trapD .deadreg (codeF n))
     (s.rdF ix n = .ok (Config.freeFlag (s.freeIx ix))))) ∧
  (codeK n ∈ s.me.bad → s.rdK ix n = .error (.rewind 0)) ∧
  (codeK n ∉ s.me.bad → n ∉ s.me.stale → s.rdK ix n = .ok (s.me.latch n)) ∧
  (codeK n ∉ s.me.bad → n ∈ s.me.stale → s.me.strictNow = true → s.rdK ix n = trapD .stale (codeK n)) ∧
  (codeK n ∉ s.me.bad → n ∈ s.me.stale → s.me.strictNow = false → s.rdK ix n = .ok (Config.freeVec (s.freeIx ix)))

/-- 08 R167, R169: the results of two scalar sources, of latency 1, and the products, of latency 3: bits [63:0], and bits [127:64] of the
signed and of the unsigned product. The slot only queues them. -/
def Obligations.ScalarTwoSources : Prop := ∀ (o : SOp2) (s : State) (a b : Word), s.rdS2 o = .ok (a, b) →
  let result (lat : Nat) (x : Word) : Host.Outcome State Fault Refusal := .next (s.giveS o.toSHead lat (sDying o.a ++ sDying o.b) x)
  let gives := result 1
  exec (.add o) s = gives (BitVec.ofNat 64 (a.toNat + b.toNat)) ∧
  exec (.sub o) s = gives (BitVec.ofInt 64 (a.toInt - b.toInt)) ∧
  (∀ sh, exec (.addsh o sh) s = gives (BitVec.ofNat 64 (a.toNat + b.toNat * 2 ^ sh.toNat))) ∧
  exec (.and o) s = gives (a &&& b) ∧ exec (.or o) s = gives (a ||| b) ∧ exec (.xor o) s = gives (a ^^^ b) ∧
  exec (.andn o) s = gives (a &&& ~~~b) ∧
  exec (.min o) s = gives (if a.toInt ≤ b.toInt then a else b) ∧ exec (.max o) s = gives (if b.toInt ≤ a.toInt then a else b) ∧
  exec (.minn o) s = gives (if a.toNat ≤ b.toNat then a else b) ∧ exec (.maxn o) s = gives (if b.toNat ≤ a.toNat then a else b) ∧
  exec (.mul o) s = result 3 (BitVec.ofNat 64 (a.toNat * b.toNat)) ∧
  exec (.mulh o) s = result 3 (BitVec.ofInt 64 (a.toInt * b.toInt / 2 ^ 64)) ∧
  exec (.mulhn o) s = result 3 (BitVec.ofNat 64 (a.toNat * b.toNat / 2 ^ 64))

/-- 08 R168: shifts and the rotation, their amount an immediate or bits [5:0] of SRC2. -/
def Obligations.ScalarShifts : Prop := ∀ (o : SShift) (s : State) (a : Word) (n : Nat) (marks : List Nat),
  s.rdSSrc (sIx o.side + 1) o.a = .ok a →
  ((∃ m, o.amt = .imm m ∧ n = m.toNat ∧ marks = sDying o.a) ∨
   (∃ r x, o.amt = .reg r ∧ s.rdSSrc (sIx o.side + 2) r = .ok x ∧ n = x.toNat % 64 ∧ marks = sDying o.a ++ sDying r)) →
  let gives (x : Word) : Host.Outcome State Fault Refusal := .next (s.giveS o.toSHead 1 marks x)
  exec (.shl o) s = gives (BitVec.ofNat 64 (a.toNat * 2 ^ n)) ∧ exec (.shr o) s = gives (BitVec.ofNat 64 (a.toNat / 2 ^ n)) ∧
  exec (.shra o) s = gives (BitVec.ofInt 64 (a.toInt / 2 ^ n)) ∧ exec (.rotr o) s = gives (a.rotateRight n)

/-- 08 R167, R170: results of one scalar source, and CLZ, CTZ and POPC: the leading zeros, the trailing zeros and the ones of 64 bits. -/
def Obligations.ScalarOneSource : Prop := ∀ (h : SHead) (src : SSrc) (s : State) (a : Word), s.rdSSrc (sIx h.side + 1) src = .ok a →
  let gives (x : Word) : Host.Outcome State Fault Refusal := .next (s.giveS h 1 (sDying src) x)
  exec (.mov ⟨h, src⟩) s = gives a ∧
  (∀ imm, exec (.addi ⟨h, src, imm⟩) s = gives (BitVec.ofInt 64 (a.toInt + imm.toInt))) ∧
  (∀ imm, exec (.lih ⟨h, src, imm⟩) s = gives (BitVec.ofNat 64 (a.toNat * 2 ^ 18 + imm.toNat))) ∧
  (∀ w, exec (.sext ⟨h, src⟩ w) s = gives (BitVec.ofInt 64 (sx a.toNat (extBits w)))) ∧
  (∀ w, exec (.zext ⟨h, src⟩ w) s = gives (BitVec.ofNat 64 (a.toNat % 2 ^ extBits w))) ∧
  (∀ imm, exec (.li h imm) s = .next (s.giveS h 1 [] (BitVec.ofInt 64 imm.toInt))) ∧
  (let counts (n : Nat) := gives (BitVec.ofNat 64 n)
   (∃ n, n ≤ 64 ∧ exec (.clz ⟨h, src⟩) s = counts n ∧ a.toNat < 2 ^ (64 - n) ∧ (n < 64 → 2 ^ (63 - n) ≤ a.toNat)) ∧
   (∃ n, n ≤ 64 ∧ exec (.ctz ⟨h, src⟩) s = counts n ∧ (a = 0 → n = 64) ∧ (a ≠ 0 → a.toNat % 2 ^ n = 0 ∧ a.toNat / 2 ^ n % 2 = 1)) ∧
   exec (.popc ⟨h, src⟩) s = counts (((List.range 64).filter (fun i => a.getLsbD i)).length))

/-- 08 R167, R171: SEL and CMP. CMP writes a flag, and its slot's latch takes 1 or 0. -/
def Obligations.ScalarSelectCompare : Prop :=
  (∀ (o : SOp2) (f : BitVec 3) (s : State) (a b : Word) (c : Bool), s.rdS2 o = .ok (a, b) → s.rdF (sIx o.side + 3) f.toNat = .ok c →
    exec (.sel o f) s = .next (s.giveS o.toSHead 1 (sDying o.a ++ sDying o.b) (if c then a else b))) ∧
  ∀ (side : Side) (f : BitVec 3) (wbs : Bool) (cc : SCond) (x y : SSrc) (s : State) (a b : Word),
    s.rdSSrc (sIx side + 1) x = .ok a → s.rdSSrc (sIx side + 2) y = .ok b →
    exec (.cmp side f wbs cc x y) s = .next (s.upMe (fun k => (k.kill (sDying x ++ sDying y)).deliver 1 (destF f wbs) (some (sLatch side))
      (if (match cc with
        | .eq => decide (a = b) | .ne => decide (a ≠ b) | .lt => decide (a.toInt < b.toInt) | .ge => decide (b.toInt ≤ a.toInt)
        | .ltn => decide (a.toNat < b.toNat) | .gen => decide (b.toNat ≤ a.toNat) | .tst => decide (a &&& b ≠ 0)) then 1 else 0) 0))

/-- 08 R172, R173: RDIX (0 at or above LDEPTH), RDTC, and every form of MYXY, on a compute core and on an NMV core. -/
def Obligations.ScalarReadOuts : Prop := ∀ (h : SHead) (s : State),
  let gives (n : Nat) : Host.Outcome State Fault Refusal := .next (s.giveS h 1 [] (BitVec.ofNat 64 n))
  (∀ (l : BitVec 3) (e : LoopEnt), s.me.loops[l.toNat]? = some e → exec (.rdix h l) s = gives e.ix.toNat) ∧
  (∀ l : BitVec 3, s.me.loops.length ≤ l.toNat → exec (.rdix h l) s = gives 0) ∧
  exec (.rdtc h) s = gives s.tc ∧
  (s.cur < 2048 → exec (.myxy h .abs) s = gives (s.cur % 32 + 2 ^ 16 * (s.cur / 32))) ∧
  (2048 ≤ s.cur → exec (.myxy h .rel) s = gives 0 ∧ exec (.myxy h .die) s = gives ((s.cur - 2048) / 16)) ∧
  (∀ rid l, s.cur < 2048 → s.me.rid = some rid → look s.launches rid = some l →
    exec (.myxy h .rel) s = gives ((s.cur % 32 - l.x0) + 2 ^ 16 * (s.cur / 32 - l.y0)) ∧
    exec (.myxy h .log) s = gives (s.me.lidx + 2 ^ 16 * (l.recd.width / (if s.me.paired then 2 else 1) * l.recd.height))) ∧
  (s.cur < 2048 → exec (.myxy h .die) s = gives (8 * (s.cur / 32 / 8) + s.cur % 32 / 4 +
    2 ^ 8 * (2 * (s.cur / 32 % 8 / 2) + s.cur % 32 % 4 / 2) + 2 ^ 16 * (2 * (s.cur / 32 % 2) + s.cur % 32 % 2))) ∧
  (2048 ≤ s.cur → exec (.myxy h .abs) s = gives ((s.cur - 2048) / 16 + 2 ^ 16 * ((s.cur - 2048) % 16)) ∧ exec (.myxy h .log) s = gives 0)

/-- 06 R118, 07 R141, R151, 08 R174, R175: RDSYS reads the nine system registers, WRSYS queues a write that the four writable ones take; the other numbers trap. The
FOLLOW bit of SYS.MODE differs on the two cores of a pair, so that the cycle of its read does not match. -/
def Obligations.SystemRegisters : Prop := ∀ (h : SHead) (side : Side) (src : SSrc) (s : State) (x : Word) (k : Core),
  exec (.rdsys h 0) s = .next (s.giveS h 1 [] (s.me.ctag.setWidth 64)) ∧
  exec (.rdsys h 1) s = .next (s.giveS h 1 [] (s.me.token.setWidth 64)) ∧
  exec (.rdsys h 2) s = .next (s.giveS h 1 [] (s.me.seed0.setWidth 64)) ∧
  exec (.rdsys h 3) s = .next (s.giveS h 1 [] (s.me.seed1.setWidth 64)) ∧
  exec (.rdsys h 4) s = .next (s.giveS h 1 [] (s.me.flags.setWidth 64)) ∧
  (let mode : Word := BitVec.ofNat 64 (2 ^ 11 * s.me.ras.length + 2 ^ 8 * s.me.loops.length + 2 ^ 4 * s.me.task.toNat + 8 * nb s.me.follow +
     4 * nb s.me.nmv + 2 * nb s.me.paired + nb s.me.strict)
   let noted : Prop := s.me.paired = true ∧ (s.me.mon = none ∨ (h.d ≠ 0 ∧ h.wbs = false))
   (¬ noted → exec (.rdsys h 5) s = .next (s.giveS h 1 [] mode)) ∧
   (noted → exec (.rdsys h 5) s =
     .next ((s.upMe (fun q => { q with pairBad := some (q.pairBad.getD (q.ic + 1)) })).giveS h 1 [] mode))) ∧
  exec (.rdsys h 6) s = .next (s.giveS h 1 [] s.me.tfbase) ∧
  exec (.rdsys h 7) s = .next (s.giveS h 1 [] s.me.cause) ∧
  exec (.rdsys h 8) s = .next (s.giveS h 1 [] (BitVec.ofNat 64 (2 ^ 16 * s.me.ev.toNat + s.me.mask.toNat))) ∧
  (∀ n : BitVec 10, 8 < n.toNat → exec (.rdsys h n) s = .next (takeTrap s ⟨.illop, BitVec.ofNat 32 (0xC00 + n.toNat), 0⟩ none)) ∧
  (s.rdSSrc (sIx side + 1) src = .ok x → ∀ n : BitVec 10,
    (2 ≤ n.toNat → n.toNat ≤ 8 → exec (.wrsys side n src) s = .next (s.upMe (fun k =>
      { k with bound := k.bound ++ (sDying src).map BWrite.dead ++ [.sys n.toNat x] }))) ∧
    (n.toNat < 2 → exec (.wrsys side n src) s = .next (takeTrap s ⟨.illop, BitVec.ofNat 32 (0x20000 + n.toNat), 0⟩ none)) ∧
    (8 < n.toNat → exec (.wrsys side n src) s = .next (takeTrap s ⟨.illop, BitVec.ofNat 32 (0xC00 + n.toNat), 0⟩ none))) ∧
  (k.bWrite (.sys 2 x)).seed0 = x.setWidth 32 ∧ (k.bWrite (.sys 3 x)).seed1 = x.setWidth 32 ∧
  (k.bWrite (.sys 4 x)).flags = x.setWidth 6 ∧ (k.bWrite (.sys 8 x)).mask = x.setWidth 16 ∧
  (∀ n, n ∉ [2, 3, 4, 8] → k.bWrite (.sys n x) = k)

/-- 18 R345, R351, R352: in the monitor TFLD and TFST read and write a word of the trap frame, TFST leaving the reserved words alone; in
kernel code both trap ILLOP. Word 5, which holds FOLLOW, differs on the two cores of a pair (07 R151). -/
def Obligations.FrameWords : Prop := ∀ (side : Side) (d : BitVec 6) (w : BitVec 10) (src : SSrc) (s : State) (x : Word) (k : Core),
  (s.me.mon.isSome = true →
    (let val : Word := BitVec.ofNat 64 (s.me.spill.nat (0x6000 + 8 * w.toNat) 8)
     let noted : Prop := w = 5 ∧ s.me.paired = true ∧ d ≠ 0
     (¬ noted → exec (.tfld side d w) s = .next (s.giveS ⟨side, d, false⟩ 1 [] val)) ∧
     (noted → exec (.tfld side d w) s =
       .next ((s.upMe (fun q => { q with pairBad := some (q.pairBad.getD (q.ic + 1)) })).giveS ⟨side, d, false⟩ 1 [] val))) ∧
    (s.rdSSrc (sIx side + 1) src = .ok x → exec (.tfst side w src) s = .next (s.upMe (fun k =>
      { k with bound := k.bound ++ (sDying src).map BWrite.dead ++ [.tf w.toNat x] })))) ∧
  (s.me.mon = none →
    exec (.tfld side d w) s = .next (takeTrap s ⟨.illop, 0x23, 0⟩ none) ∧
    exec (.tfst side w src) s = .next (takeTrap s ⟨.illop, 0x24, 0⟩ none)) ∧
  (tfReserved w.toNat = true → k.bWrite (.tf w.toNat x) = k) ∧
  (tfReserved w.toNat = false → (k.bWrite (.tf w.toNat x)).tf w.toNat = x.toNat)

/-- 06 R117 to R121, 07 R135: landing a result writes its register alone, as the register's kind takes it, and S0, P0 and F0 stay what
they are. -/
def Obligations.LandWritesDestination : Prop := ∀ (k : Core) (p : Pend),
  (∀ n, p.dest = .s n → n ≠ 0 → (k.land p).sreg n.toNat = p.val.setWidth 64) ∧
  (∀ n, p.dest = .v n → (k.land p).vreg n.toNat = p.val) ∧
  (∀ n, p.dest = .p n → n ≠ 0 → (k.land p).preg n.toNat = p.val.setWidth 32) ∧
  (∀ n, p.dest = .f n → n ≠ 0 → (k.land p).freg n.toNat = p.val.getLsbD 0) ∧
  (∀ n, (∀ m, p.dest = .s m → m.toNat ≠ n) → (k.land p).sreg n = k.sreg n) ∧
  (∀ n, (∀ m, p.dest = .v m → m.toNat ≠ n) → (k.land p).vreg n = k.vreg n) ∧
  (∀ n, (∀ m, p.dest = .p m → m.toNat ≠ n) → (k.land p).preg n = k.preg n) ∧
  (∀ n, (∀ m, p.dest = .f m → m.toNat ≠ n) → (k.land p).freg n = k.freg n) ∧
  (k.land p).sreg 0 = 0 ∧ (k.land p).preg 0 = 0xFFFF_FFFF ∧ (k.land p).freg 0 = true ∧
  (k.land p).flags = k.flags ||| p.efl ∧ (k.land p).banks = k.banks ∧ (k.land p).spill = k.spill ∧
  (k.land p).loops = k.loops ∧ (k.land p).ras = k.ras ∧ (k.land p).pos = k.pos ∧ (k.land p).cause = k.cause

/-- 07 R135, R137: at the start of issue cycle ic exactly the results land whose cycle has come. -/
def Obligations.ResultsLandWhenDue : Prop := ∀ (k : Core) (p : Pend), p ∈ k.landAll.pend ↔ p ∈ k.pend ∧ k.ic < p.due

/-- 07 R133: a slot instruction acting alone has its slot's effect, a precise trap, a rewind, or none while it stalls. -/
def Obligations.SlotOutcomes : Prop := ∀ (i : Instr) (s t : State), (slotOf i).isSome = true →
  (slotEff i s = .ok t → exec i s = .next t) ∧
  (∀ tr, slotEff i s = .error (.trap tr) → exec i s = .next (takeTrap s tr none)) ∧
  (∀ tr r, slotEff i s = .error (.trapSt tr r) → exec i s = .next (takeTrap s tr (some r))) ∧
  (∀ pa, slotEff i s = .error (.rewind pa) → exec i s = .next (s.rewindCore s.cur .poison pa)) ∧
  (∀ b, slotEff i s = .error (.stall b) → exec i s = .next s)

/-- 07 R133, log 1, log 2: with nothing owed, a step on a quiet core fetches the bundle at its position, runs the instructions that its slots
decode to over one reading of the state, ends the bundle, and gives the turn to the next core; the one instruction of a bundle with one
slot is run as `exec` runs it. The follower of a pair has its issue cycle with the leader's (07 R151). A load that has no room for its page
request (11 R249), a pair's request that has still to leave, and on an NMV core a stack in self-refresh (12 R258) hold the core up. -/
def Obligations.StepRunsTheBundle : Prop := ∀ (s s2 : State) (x : Code) (b : BundleBits) (len : Nat),
  s.agenda = [] → (s.turn = false ∨ s.inflight = []) → s.engs = [] → s.active.contains s.cur = true → Quiet s.me →
  s.codeOf s.me = some x → s.me.missing x s.me.pos = none → fetch x s.me.nmv s.me.pos = .ok (b, len) → s.me.mon = none →
  s.me.window = false → bundleSeam b = false → s.loadWaitsPage s.cur = false →
  (s.me.paired = true → ∀ e ∈ s.reqs, e.2.core = s.cur → e.2.left = true) →
  (s.me.nmv = true → (s.stack (nmvStack s.cur)).therm ≠ .selfref) →
  let c := s.cur
  let s0 : State := ({ s with turn := !s.turn, fresh := s.fresh + 1 }.upCore c (fun k => { k with stall := .none })).loopTest c
  let s1 := s0.upCore c (fun k => { k.landAll with len := len, prof := if bundleProf b = 0 then k.defprof else bundleProf b
                                                   br := .none, bound := [], stitchOp := none })
  overfillOf (bundleSlots b) s1 c = .fits → runSlots (bundleSlots b) s1 = .ok s2 →
  let u := s0.issued c (.done ((s2.upCore c (fun k => { k with after := false, stitchBit := false })).finish c x b len))
  step s = .next (if (u.core c).ic = s.me.ic + 1 ∧ (u.core c).mon.isSome = false then u.mirror c else u).advance ∧
  (∀ n i, bundleSlots b = [(n, i)] → (slotOf i).isSome = true → exec i s1 = .next s2)

/-- 08 R157, R156, 07 R142, R146: J, JF, JP, CALL and RET, to the end of their bundle: where the core goes, and what the return stack
holds. A target that fails its check raises BADTGT at the failed position (06 R105).
07 R144, 08 R158, R159: LOOP pushes a loop or skips a body of count 0, and LEXIT leaves the innermost hardware loop; a seventh entry
traps LOOPDEEP, and LEXIT with no hardware loop open traps ILLOP. The end test after the
bundle at h: the innermost hardware loop that ends there goes back to its start with its index one higher while passes remain, else its
entry is popped and the test goes on outwards; a loop that ends elsewhere, or a declared level, ends the test. -/
def Obligations.JumpsAndLoops : Prop :=
  (∀ (s : State) (t : BitVec 20) (h n : Nat) (x : Code),
  let jumps (i : Instr) (u : State) : Prop := exec i s = .next u ∧
    ((afterBranch u h n x).me.pos = t.toNat ∧ (afterBranch u h n x).me.loops = s.me.loops ∧
     (afterBranch u h n x).me.causes = if x.targetOk t.toNat then s.me.causes else s.me.causes ++ [.badtgt t.toNat])
  let falls (i : Instr) : Prop := exec i s = .next s
  (∃ u, jumps (.j t) u ∧ (afterBranch u h n x).me.ras = s.me.ras) ∧
  (∀ (neg : Bool) (f : BitVec 3) (c : Bool), s.rdF 1 f.toNat = .ok c → if c ≠ neg then ∃ u, jumps (.jf neg f t) u else falls (.jf neg f t)) ∧
  (∀ (neg : Bool) (p : BitVec 4), s.rdP 1 p.toNat = .ok 0xFFFF_FFFF → if neg then falls (.jp neg p t) else ∃ u, jumps (.jp neg p t) u) ∧
  (∀ (neg : Bool) (p : BitVec 4), s.rdP 1 p.toNat = .ok 0 → if neg then ∃ u, jumps (.jp neg p t) u else falls (.jp neg p t)) ∧
  (∀ (neg : Bool) (p : BitVec 4) (v : BitVec 32), s.rdP 1 p.toNat = .ok v → v ≠ 0 → v ≠ 0xFFFF_FFFF →
    exec (.jp neg p t) s = .next (takeTrap s ⟨.nonuni, BitVec.ofNat 32 v.toNat, 0⟩ none)) ∧
  (s.me.ras.length < 8 → ∃ u, jumps (.call t) u ∧ (afterBranch u h n x).me.ras = s.me.ras ++ [n]) ∧
  (8 ≤ s.me.ras.length → exec (.call t) s = .next (takeTrap s ⟨.calldeep, 8, 0⟩ none)) ∧
  (∀ (rs : List Nat) (r : Nat), s.me.ras = rs ++ [r] → x.targetOk r = true → ∃ u, exec .ret s = .next u ∧ (afterBranch u h n x).me.pos = r ∧
    (afterBranch u h n x).me.ras = rs) ∧
  (s.me.ras = [] → exec .ret s = .next (takeTrap s ⟨.retempty, 0, 0⟩ none))) ∧
  ∀ (s : State) (e : BitVec 13) (h n : Nat) (x : Code),
  let loops (i : Instr) (cnt : BitVec 32) : Prop :=
    (cnt = 0 → x.targetOk (x.nextPos (s.me.pos + e.toNat)) = true → ∃ u, exec i s = .next u ∧
      (afterBranch u h n x).me.pos = x.nextPos (s.me.pos + e.toNat) ∧ (afterBranch u h n x).me.loops = s.me.loops) ∧
    (cnt ≠ 0 → s.me.loops.length < 6 → ∃ u, exec i s = .next u ∧ (afterBranch u h n x).me.pos = n ∧
      (afterBranch u h n x).me.loops = s.me.loops ++ [⟨0, cnt, s.me.pos + s.me.len, s.me.pos + e.toNat⟩]) ∧
    (cnt ≠ 0 → 6 ≤ s.me.loops.length → exec i s = .next (takeTrap s ⟨.loopdeep, 6, 0⟩ none))
  (∀ m : BitVec 12, loops (.loopImm e m) (m.setWidth 32)) ∧
  (∀ (r : BitVec 6) (v : Word), s.rdS 1 r.toNat = .ok v → loops (.loopReg e r) (v.setWidth 32)) ∧
  (∀ (neg : Bool) (f : BitVec 3), s.rdF 1 f.toNat = .ok neg → exec (.lexit neg f) s = .next s) ∧
  (∀ (neg : Bool) (f : BitVec 3) (ls : List LoopEnt) (l : LoopEnt), s.rdF 1 f.toNat = .ok (!neg) → s.me.loops = ls ++ [l] → s.me.levels ≤ ls.length →
    x.targetOk (x.nextPos l.end_) = true → ∃ u, exec (.lexit neg f) s = .next u ∧ (afterBranch u h n x).me.loops = ls ∧
    (afterBranch u h n x).me.pos = x.nextPos l.end_) ∧
  (∀ (neg : Bool) (f : BitVec 3), s.rdF 1 f.toNat = .ok (!neg) → s.me.loops.length ≤ s.me.levels →
    exec (.lexit neg f) s = .next (takeTrap s ⟨.illop, 7, 0⟩ none)) ∧
  (∀ (lv f : Nat) (ls : List LoopEnt) (l : LoopEnt),
    (lv ≤ ls.length → l.end_ = h → l.ix.toNat + 1 < l.count.toNat →
      loopEnd h lv (f + 1) (ls ++ [l]) = (ls ++ [{ l with ix := l.ix + 1 }], some l.start)) ∧
    (lv ≤ ls.length → l.end_ = h → l.count.toNat ≤ l.ix.toNat + 1 → loopEnd h lv (f + 1) (ls ++ [l]) = loopEnd h lv f ls) ∧
    (l.end_ ≠ h → loopEnd h lv (f + 1) (ls ++ [l]) = (ls ++ [l], none)) ∧
    (ls.length < lv → loopEnd h lv (f + 1) (ls ++ [l]) = (ls ++ [l], none)) ∧ loopEnd h lv f [] = ([], none))

/-- 08 R160 to R166, 18 R351: EXIT, the waits, TRAP, RETT and HALT: what each asks of the end of its bundle, and where it traps. -/
def Obligations.TaskControl : Prop := ∀ (s : State) (h n : Nat) (x : Code),
  (s.me.alloc = [] → exec .exit s = .next (s.setBr .exit)) ∧
  (s.me.alloc ≠ [] → exec .exit s = .next (takeTrap s ⟨.acchold, BitVec.ofNat 32 s.me.alloc.length, 0⟩ none)) ∧
  (∀ (r : BitVec 6) (v : Word), s.rdS 1 r.toNat = .ok v → exec (.waitt r) s = .next (s.setBr (.wait (.tc v)))) ∧
  (∀ m, exec (.waiteImm m) s = .next (s.setBr (.wait (.ev m)))) ∧
  (∀ (r : BitVec 6) (v : Word), s.rdS 1 r.toNat = .ok v → exec (.waiteReg r) s = .next (s.setBr (.wait (.ev (v.setWidth 16))))) ∧
  (∀ (fd : BitVec 3) (r : BitVec 6) (a : Word) (pa : Nat), s.rdS 1 r.toNat = .ok a → a.toNat % 8 = 0 → s.inTagged s.me a.toNat = false →
    s.xlate (engOf s.cur) a.toNat 0 .read = .ok pa → exec (.waitc fd r) s = .next (s.setBr (.wait (.ctr a (some pa) fd)))) ∧
  (∀ (fd : BitVec 3) (r : BitVec 6) (a : Word), s.rdS 1 r.toNat = .ok a → a.toNat % 8 ≠ 0 → exec (.waitc fd r) s = .next (takeTrap s ⟨.illop, 0x700, a⟩ none)) ∧
  (∀ code, s.me.mon = none → ∃ u, exec (.trap code) s = .next u ∧ (afterBranch u h n x).me.pos = n ∧
    (afterBranch u h n x).me.causes = s.me.causes ++ [.swtrap code]) ∧
  (∀ code, s.me.mon.isSome = true → exec (.trap code) s = .next (takeTrap s ⟨.swtrap, BitVec.ofNat 32 code.toNat, 0⟩ none)) ∧
  (s.me.mon.isSome = true → exec .rett s = .next (s.setBr .rett) ∧ exec .halt s = .next (s.setBr .halt)) ∧
  (s.me.mon = none → exec .rett s = .next (takeTrap s ⟨.illop, 0x0D, 0⟩ none) ∧
    exec .halt s = .next (takeTrap s ⟨.illop, 0x0E, 0⟩ none))

/-- 08 R161 to R164, 16 R313, 12 R258: what ends each wait, and what its end does: WAITT on TC, WAITE on the event bits, which it clears,
WAITC on a posted counter that has reached its target, or that has come to hold since the wait began, whose over-arrival flag goes to F; the
counter's stack takes the read, and a poisoned counter is consumed instead, which is the model's reading (log 111). -/
def Obligations.WaitConditions : Prop := ∀ (s : State) (c : Nat),
  (∀ v : Word, (s.waitDone c (.tc v)).isSome = true ↔ v.toNat ≤ s.tc) ∧
  (∀ m : BitVec 16, (s.waitDone c (.ev m)).isSome = true ↔ (s.core c).ev &&& m = m) ∧
  (∀ (m : BitVec 16) (t : State), s.waitDone c (.ev m) = some t → (t.core c).ev = (s.core c).ev &&& ~~~m) ∧
  (∀ (va : Word) (pa : Nat) (fd : BitVec 3), (s.waitDone c (.ctr va (some pa) fd)).isSome = true ↔
    s.paHeld pa 16 = false ∧ s.poisonAt (s.freeIx 1) pa 16 = none ∧ ((s.core c).waitCame = true ∨
      (let x := s.counterAt (s.freeIx 1) pa
       x.posted = true ∧ (x.target : Int) ≤ x.count.toInt))) ∧
  (∀ (va : Word) (pa : Nat) (fd : BitVec 3) (t : State), s.waitDone c (.ctr va (some pa) fd) = some t → fd ≠ 0 →
    (t.core c).freg fd.toNat = (s.counterAt (s.freeIx 1) pa).past) ∧
  (∀ n pa, region pa = .ordinary → s.counterAt n pa = s.counter pa)

/-- 07 R143, 09 R178: an operation under a lane predicate: an element whose lane is enabled is the operation's, another one is what the
destination held; the flags are those of the enabled elements. -/
def Obligations.PredicatedElements : Prop := ∀ (w : Nat) (p : BitVec 32) (old : Vec) (f : Nat → Nat × Flags) (i : Nat),
  w ∈ [8, 16, 32, 64] → i < 1024 / w →
  (p.getLsbD (i * w / 32) = true → elemAt w (mapElems w p old f).1 i = (f i).1 % 2 ^ w) ∧
  (p.getLsbD (i * w / 32) = false → elemAt w (mapElems w p old f).1 i = elemAt w old i) ∧
  (∀ b, b < 6 → ((mapElems w p old f).2.getLsbD b = true ↔
    ∃ j, j < 1024 / w ∧ p.getLsbD (j * w / 32) = true ∧ (f j).2.getLsbD b = true))

/-- 09 R181: packed floating arithmetic, each element rounded once from its exact value, with latency 4; the fused forms read the
destination. -/
def Obligations.VectorFloat : Prop := ∀ (o : VOpR) (s : State) (x y d : Vec) (p : BitVec 32), Reads2 s o.toVHead o.a o.b x y p →
  let old := s.oldV (vIx o.side) o.d.toNat
  let marks := vDying o.a ++ vDying o.b
  let t := o.ty
  let gives (old : Vec) (f : Nat → FV × Flags) := vGives s o.toVHead 4 t.width marks p old (fun i => roundArith t o.m (f i))
  exec (.vadd o) s = gives old (fun i => (operand t x i).add (operand t y i)) ∧
  exec (.vsub o) s = gives old (fun i => (operand t x i).add (operand t y i).neg) ∧
  exec (.vmul o) s = gives old (fun i => (operand t x i).mul (operand t y i)) ∧
  (s.rdV (vIx o.side) o.d.toNat = .ok d →
    exec (.vfma o) s = gives d (fun i => FV.fma (operand t x i) (operand t y i) (operand t d i)) ∧
    exec (.vfms o) s = gives d (fun i => FV.fma (operand t x i) (operand t y i) (operand t d i).neg) ∧
    exec (.vfnma o) s = gives d (fun i => FV.fma (operand t x i).neg (operand t y i) (operand t d i)))

/-- 09 R182: VMIN and VMAX of floating elements, with and without the NaN modifier. -/
def Obligations.VectorFloatPick : Prop := ∀ (o : VOp2) (nan : Bool) (s : State) (x y : Vec) (p : BitVec 32),
  Reads2 s o.toVHead o.a o.b x y p →
  let t := o.ty
  let pick (keepX : FV → FV → Bool) (i : Nat) : Nat :=
    let a := elemAt t.width x i
    let b := elemAt t.width y i
    if (dec t a).isNan ∧ (dec t b).isNan then canon t
    else if (dec t a).isNan then (if nan then canon t else b)
    else if (dec t b).isNan then (if nan then canon t else a)
    else if keepX (dec t a) (dec t b) then a else b
  let gives (k : FV → FV → Bool) := vGives s o.toVHead 4 t.width (vDying o.a ++ vDying o.b) p (s.oldV (vIx o.side) o.d.toNat)
    (fun i => (pick k i, nfOf t (pick k i)))
  exec (.vmin o nan) s = gives (fun a b => !b.ltOrd a) ∧ exec (.vmax o nan) s = gives (fun a b => !a.ltOrd b)

/-- 09 R183 to R186: operations on one floating source: sign operations and classes of latency 4, the functions of latency 8. The
class mask has one bit set for every FP32, BF16 or FP16 element. -/
def Obligations.VectorFloatUnary : Prop := ∀ (o : VOp1) (s : State) (x : Vec) (p : BitVec 32), Reads1 s o.toVHead o.a x p →
  let t := o.ty
  let w := t.width
  let gives (lat : Nat) (f : Nat → Nat × Flags) := vGives s o.toVHead lat w (vDying o.a) p (s.oldV (vIx o.side) o.d.toNat) f
  let func (f : FV → Nat × Flags) (i : Nat) : Nat × Flags := ((f (operand t x i)).1, (f (operand t x i)).2 ||| nfOf t (f (operand t x i)).1)
  let sign (f : Nat → Nat) (i : Nat) : Nat × Flags :=
    let e := elemAt w x i
    let r := if (dec t e).isNan then canon t else f e
    (r, nfOf t r)
  exec (.vabs o) s = gives 4 (sign (fun e => e % 2 ^ (w - 1))) ∧
  exec (.vneg o) s = gives 4 (sign (fun e => (e + 2 ^ (w - 1)) % 2 ^ w)) ∧
  exec (.vfcls o) s = gives 4 (fun i => (fclass t (elemAt w x i), 0)) ∧
  exec (.vrcp o) s = gives 8 (func (rcp (fmtD t))) ∧ exec (.vrsq o) s = gives 8 (func (rsq (fmtD t))) ∧
  (∀ m, exec (.vsqrt o m) s = gives 8 (func (sqrt (fmtD t) m))) ∧
  exec (.vexp2 o) s = gives 8 (func (exp2 (fmtD t))) ∧ exec (.vlog2 o) s = gives 8 (func (log2 (fmtD t))) ∧
  exec (.vsigm o) s = gives 8 (func (sigm (fmtD t))) ∧ exec (.vtanh o) s = gives 8 (func (tanh (fmtD t))) ∧
  (∀ e, t.isFloat = true → e < 2 ^ w → fclass t e ∈ [1, 2, 4, 8, 16, 32, 64, 128, 256] ∧ (fclass t e = 256 ↔ (dec t e).isNan = true))

/-- 09 R195, R197: packed integer arithmetic, exact and then narrowed: modulo the width, saturated, or the high half. -/
def Obligations.VectorInteger : Prop := ∀ (o : VOp2) (v : IVar) (s : State) (x y d : Vec) (p : BitVec 32),
  Reads2 s o.toVHead o.a o.b x y p →
  let t := o.ty
  let w := t.width
  let el (z : Vec) (i : Nat) : Int := if t.signed then sx (elemAt w z i) w else (elemAt w z i : Int)
  let narrow (n : Int) : Nat := match v with
    | .wrap => (n % 2 ^ w).toNat
    | .sat => (clampInt t n % 2 ^ w).toNat
    | .hi => (n / 2 ^ w % 2 ^ w).toNat
  let gives (lat : Nat) (old : Vec) (f : Nat → Nat) := vGives s o.toVHead lat w (vDying o.a ++ vDying o.b) p old (fun i => (f i, 0))
  let old := s.oldV (vIx o.side) o.d.toNat
  exec (.viadd o v) s = gives 2 old (fun i => narrow (el x i + el y i)) ∧
  exec (.visub o v) s = gives 2 old (fun i => narrow (el x i - el y i)) ∧
  exec (.vimul o v) s = gives 4 old (fun i => narrow (el x i * el y i)) ∧
  (s.rdV (vIx o.side) o.d.toNat = .ok d → exec (.vimac o v) s = gives 4 d (fun i => narrow (el d i + el x i * el y i))) ∧
  exec (.vimin o) s = gives 2 old (fun i => if el x i ≤ el y i then elemAt w x i else elemAt w y i) ∧
  exec (.vimax o) s = gives 2 old (fun i => if el y i ≤ el x i then elemAt w x i else elemAt w y i)

/-- 09 R196: bitwise operations on whole lanes, and shifts by an amount taken modulo the width, VSHRA signed whatever the type. -/
def Obligations.VectorLogicShift : Prop := ∀ (h : VHead) (ty : ElemType) (a b : VSrc) (c : SSrc) (s : State) (x y : Vec) (n : Word)
    (p : BitVec 32), Reads2 s h a b x y p →
  let w := ty.width
  let old := s.oldV (vIx h.side) h.d.toNat
  let logic (f : Nat → Nat → Nat) := vGives s h 2 32 (vDying a ++ vDying b) p old (fun i => (f (elemAt 32 x i) (elemAt 32 y i), 0))
  let shift (marks : List Nat) (m : Nat → Nat) (f : Nat → Nat → Nat) := vGives s h 2 w marks p old (fun i => (f (elemAt w x i) (m i % w), 0))
  let o : VOp1 := ⟨h, ty, a⟩
  let shl (e n : Nat) : Nat := e * 2 ^ n % 2 ^ w
  let shr (e n : Nat) : Nat := e / 2 ^ n
  let shra (e n : Nat) : Nat := ((sx e w / 2 ^ n) % 2 ^ w).toNat
  exec (.vand h a b) s = logic (fun x y => x &&& y) ∧ exec (.vor h a b) s = logic (fun x y => x ||| y) ∧
  exec (.vxor h a b) s = logic (fun x y => x ^^^ y) ∧
  (let m := elemAt w y
   let d := vDying a ++ vDying b
   exec (.vshl o (.vec b)) s = shift d m shl ∧ exec (.vshr o (.vec b)) s = shift d m shr ∧ exec (.vshra o (.vec b)) s = shift d m shra) ∧
  (s.rdSSrc (vIx h.side + 2) c = .ok n →
   let m := fun (_ : Nat) => n.toNat
   let d := vDying a ++ sDying c
   exec (.vshl o (.scal c)) s = shift d m shl ∧ exec (.vshr o (.scal c)) s = shift d m shr ∧ exec (.vshra o (.scal c)) s = shift d m shra)

/-- 09 R187, R188, R189, R191, R192, R194: conversion, quantisation, stochastic rounding, scale and random words; VMOMQ and VMOMD need a
valid code table, and trap ILLOP without one (09 R193). -/
def Obligations.VectorConvert : Prop := ∀ (o : VOpR) (src : ElemType) (c : SSrc) (pm : BitVec 4) (abs : Bool) (s : State) (x y : Vec) (n : Word)
    (m p : BitVec 32), Reads2 s o.toVHead o.a o.b x y p →
  let old := s.oldV (vIx o.side) o.d.toNat
  let marks := vDying o.a ++ vDying o.b
  let w := if src.width = o.ty.width then src.width else 32
  exec (.vcvt ⟨o.toVHead, o.ty, o.a⟩ src o.m) s =
    vGives s o.toVHead 4 w (vDying o.a) p old (fun i => convertElem src o.ty o.m (elemAt w x i % 2 ^ src.width)) ∧
  exec (.vqnt o) s = vGives s o.toVHead 4 32 marks p old (fun i => quantElem o.ty o.m (elemAt 32 x i) (elemAt 32 y i % 256)) ∧
  exec (.vdqnt o) s = vGives s o.toVHead 4 32 marks p old (fun i => dequantElem o.ty o.m (elemAt 32 x i) (elemAt 32 y i % 256)) ∧
  (s.rdSSrc (vIx o.side + 2) c = .ok n → exec (.vsrnd ⟨o.toVHead, o.ty, o.a, c⟩) s =
    vGives s o.toVHead 4 32 (vDying o.a ++ sDying c) p old (fun l => srndElem o.ty (s.me.mixAt (n.toNat + l)) (elemAt 32 x l))) ∧
  (s.rdSSrc (vIx o.side + 1) c = .ok n → exec (.vrand o.toVHead c) s =
    vGives s o.toVHead 4 32 (sDying c) p old (fun l => (s.me.mixAt (n.toNat + l), 0))) ∧
  (s.rdP (vIx o.side + 2) pm.toNat = .ok m → exec (.vamax ⟨o.toVHead, o.ty, o.a⟩ abs pm) s =
    vGives s o.toVHead 4 32 (vDying o.a) p old (fun _ => if abs then (amaxBits x m, nfOf .fp32 (amaxBits x m))
      else (scaleByte o.ty (dec .fp32 (amaxBits x m)), 0))) ∧
  (s.me.ctValid = true →
    exec (.vmomq o.toVHead o.a o.b) s = vGives s o.toVHead 4 32 marks p old (fun l => momCode s.me (elemAt 32 x l) (elemAt 32 y l)) ∧
    exec (.vmomd o.toVHead o.m o.a o.b) s = vGives s o.toVHead 4 32 marks p old
      (fun l => roundArith .fp32 o.m ((dec .fp32 (s.me.ctEntry (elemAt 32 x l % 256))).mul (dec .fp32 (elemAt 32 y l))))) ∧
  (s.me.ctValid = false →
    let t : TrapInfo := ⟨.illop, BitVec.ofNat 32 (if s.me.ctFail = 0 then 0x200 else 0x100 + (s.me.ctFail - 1)), 0⟩
    exec (.vmomq o.toVHead o.a o.b) s = .next (takeTrap s t none) ∧ exec (.vmomd o.toVHead o.m o.a o.b) s = .next (takeTrap s t none))

/-- 09 R199 to R202: selection and movement of lanes and elements. -/
def Obligations.VectorMove : Prop := ∀ (h : VHead) (ty : ElemType) (a b : VSrc) (c e : SSrc) (half : BitVec 2) (s : State) (x y d : Vec)
    (n j : Word) (p : BitVec 32), Reads2 s h a b x y p →
  let w := ty.width
  let k := 1024 / w
  let old := s.oldV (vIx h.side) h.d.toNat
  let moves (w : Nat) (marks : List Nat) (old : Vec) (f : Nat → Nat) := vGives s h 2 w marks p old (fun i => (f i, 0))
  exec (.vsel h a b) s = .next (s.giveV h 2 (vDying a ++ vDying b)
    (packElems 32 ((upFrom 0 32).map (fun l => if p.getLsbD l then elemAt 32 x l else elemAt 32 y l)), 0)) ∧
  exec (.vmov h a) s = moves 32 (vDying a) old (elemAt 32 x) ∧
  exec (.vperm h a b) s = moves 32 (vDying a ++ vDying b) old (fun i => elemAt 32 x (elemAt 32 y i % 32)) ∧
  exec (.vunpk ⟨h, ty, a⟩ half) s = moves 32 (vDying a) old (fun l => extendElem ty 32 (elemAt w x (32 * half.toNat + l))) ∧
  (s.rdSSrc (vIx h.side + 1) c = .ok n →
    exec (.vbcst h ty c) s = moves w (sDying c) old (fun _ => writtenElem ty (n.toNat % 2 ^ w))) ∧
  (s.rdSSrc (vIx h.side + 2) c = .ok n →
    exec (.vsplt ⟨h, ty, a, c⟩) s = moves w (vDying a ++ sDying c) old (fun _ => writtenElem ty (elemAt w x (n.toNat % k))) ∧
    exec (.vrotl ⟨h, ty, a, c⟩) s =
      moves w (vDying a ++ sDying c) old (fun i => writtenElem ty (elemAt w x ((i + k - n.toNat % k) % k))) ∧
    ∀ side d' wbs, side = h.side → exec (.vextr side d' wbs ty a c) s = .next (s.upMe (fun q => (q.kill (vDying a ++ sDying c)).deliver 2
      (destS d' wbs) (some (vLatch side)) (vecOfWord (BitVec.ofNat 64 (extendElem ty 64 (elemAt w x (n.toNat % k))))) 0))) ∧
  (s.rdV (vIx h.side) h.d.toNat = .ok d →
    exec (.vpack ⟨h, ty, a⟩ half) s = moves w (vDying a) d
      (fun i => if i / 32 = half.toNat then writtenElem ty (elemAt 32 x (i % 32) % 2 ^ w) else elemAt w d i) ∧
    (s.rdSSrc (vIx h.side + 1) c = .ok n → s.rdSSrc (vIx h.side + 2) e = .ok j →
      exec (.vins h ty c e) s = moves w (sDying c ++ sDying e) d
        (fun i => if i = j.toNat % k then writtenElem ty (n.toNat % 2 ^ w) else elemAt w d i)))

/-- 09 R203, R204: reductions over the lanes of a mask, in a pairwise tree whose absent lanes leave the other operand, and the scan. That only
those sums raise flags whose result reaches a lane that P enables is the model's reading (log 105). -/
def Obligations.VectorReduce : Prop := ∀ (o : VRed) (s : State) (x : Vec) (m p : BitVec 32), Reads1 s o.toVHead o.a x p →
  s.rdP (vIx o.side + 2) o.pm.toNat = .ok m →
  let old := s.oldV (vIx o.side) o.d.toNat
  let gives (r : Vec × Flags) (fl : Flags) : Host.Outcome State Fault Refusal := .next (s.giveV o.toVHead 2 (vDying o.a) (r.1, r.2 ||| fl))
  let red (f : Nat → Nat → Nat × Flags) (ident : Nat) :=
    let u := redTree f 5 (laneOpts x m)
    gives (mapElems 32 p old (fun _ => redLane o.ty ident u.1)) (if p = 0 then 0 else u.2)
  exec (.vrsum o) s = red (sumComb o.ty o.m) 0 ∧
  exec (.vrmax o) s = red (pickComb o.ty true o.nan) (if o.ty = .fp32 then 0xFF800000 else if o.ty = .i32 then 0x80000000 else 0) ∧
  exec (.vrmin o) s = red (pickComb o.ty false o.nan)
    (if o.ty = .fp32 then 0x7F800000 else if o.ty = .i32 then 0x7FFFFFFF else 0xFFFFFFFF) ∧
  exec (.vscan o) s = (let u := scanLevels (sumComb o.ty o.m) p [1, 2, 4, 8, 16] (laneOpts x m)
    gives (mapElems 32 p old (fun l => redLane o.ty 0 ((u.1[l]?).getD none))) u.2)

/-- 09 R203, R204: a sum of integer lanes, N32 or I32, is the sum of the lanes of the mask modulo 2^32, in whatever order the tree adds them;
lane l of an integer scan is the sum of the lanes 0 to l of the mask modulo 2^32. -/
def Obligations.IntegerReductions : Prop := ∀ (t : ElemType) (x : Vec) (m p : BitVec 32) (mode : RMode), t = .n32 ∨ t = .i32 →
  (redLane t 0 (redTree (sumComb t mode) 5 (laneOpts x m)).1).1 =
    (((List.range 32).filter (fun l => m.getLsbD l)).map (elemAt 32 x)).sum % 2 ^ 32 ∧
  ∀ l : Nat, l < 32 → (redLane t 0 (((scanLevels (sumComb t mode) p [1, 2, 4, 8, 16] (laneOpts x m)).1[l]?).getD none)).1 =
    (((List.range (l + 1)).filter (fun i => m.getLsbD i)).map (elemAt 32 x)).sum % 2 ^ 32

/-- 09 R198, R205: predicates: a comparison of lanes, the logic of predicates, and the counts and flags made of one. A disabled bit keeps
what the destination held. -/
def Obligations.Predicates : Prop := ∀ (side : Side) (p d a b : BitVec 4) (wbs : Bool) (s : State) (m u v : BitVec 32),
  s.rdP (vIx side + 1) a.toNat = .ok u → s.rdP (vIx side + 2) b.toNat = .ok v → s.rdP (vIx side + 3) p.toNat = .ok m →
  let gives (lat : Nat) (marks : List Nat) (r : BitVec 32) : Host.Outcome State Fault Refusal :=
    .next (s.giveP side d wbs lat m (s.oldP (vIx side) d.toNat) marks r)
  let flagTo (f : BitVec 3) (c : Bool) : Host.Outcome State Fault Refusal :=
    .next (s.upMe (fun k => k.deliver 1 (destF f wbs) (some (vLatch side)) (if c then 1 else 0) 0))
  exec (.pand ⟨side, p, d, wbs, a, b⟩) s = gives 1 [] (u &&& v) ∧ exec (.por ⟨side, p, d, wbs, a, b⟩) s = gives 1 [] (u ||| v) ∧
  exec (.pxor ⟨side, p, d, wbs, a, b⟩) s = gives 1 [] (u ^^^ v) ∧ exec (.pnot side p d wbs a) s = gives 1 [] (~~~u) ∧
  (∀ c x, s.rdSSrc (vIx side + 1) c = .ok x →
    exec (.pset side p d wbs false c) s = gives 1 (sDying c) (x.setWidth 32) ∧
    exec (.pset side p d wbs true c) s = gives 1 (sDying c) (BitVec.ofNat 32 (2 ^ (Nat.min x.toNat 32) - 1))) ∧
  (∀ f : BitVec 6, exec (.pcnt side f wbs a) s = .next (s.upMe (fun k => k.deliver 1 (destS f wbs) (some (vLatch side))
    (BitVec.ofNat 1024 (((List.range 32).filter (fun l => u.getLsbD l)).length)) 0))) ∧
  (∀ f, exec (.pany side f wbs a) s = flagTo f (decide (u ≠ 0)) ∧ exec (.pall side f wbs a) s = flagTo f (decide (u = 0xFFFF_FFFF))) ∧
  (∀ ty cc x y vx vy, s.rdVSrc (vIx side + 1) x = .ok vx → s.rdVSrc (vIx side + 2) y = .ok vy →
    exec (.vcmp side p d wbs ty cc x y) s = gives 2 (vDying x ++ vDying y)
      (BitVec.ofNat 32 (maskOf ((upFrom 0 32).map (fun l => vcmpLane ty cc (elemAt 32 vx l) (elemAt 32 vy l))))))

/-- 07 R133, R135: a scalar or vector instruction that takes effect changes nothing of the package but its core, and there only queues: no
register, flag or byte of memory changes in its issue. -/
def Obligations.SlotFrame : Prop := ∀ (i : Instr) (s t : State), isScalar i = true ∨ isVector i = true → slotEff i s = .ok t →
  exec i s = .next t ∧ OnlyMe s t ∧ OnlyQueued s.me t.me ∧ SameMemory s t ∧ SameRegs s.me t.me

/-- 10 R213, R226, R229: MMA and MMAL are queued when their regions lie in SCRATCH slices, their banks are held, their operands lie in
different bank groups and the engine is free; each check that fails traps instead, ahead of the banks' own checks in strict mode, which is
the model's choice (log 104). -/
def Obligations.MatrixIssue : Prop := ∀ (o : MmaOp) (s : State) (a b c : Word),
  s.rdS 41 o.as.toNat = .ok a → s.rdS 42 o.bs.toNat = .ok b →
  (∀ r, o.ss = some r → s.rdS 43 r.toNat = .ok c) → (o.ss = none → c = 0) →
  let k := s.me
  let steps := o.kn.toNat + 1
  let n := (if o.ty = .t6 then 3072 else 4096) * steps
  let fits (x : Word) (align len : Nat) : Prop := x.toNat % align = 0 ∧ InScratch (s.cluster (coreCluster s.cur)) x.toNat len
  let regions : Prop := fits a 128 n ∧ fits b 128 n ∧ (o.ss.isSome = true → fits c 64 (256 * steps))
  let held : Prop := ∀ j, j < 4 → o.acb.toNat + j ∈ k.alloc
  let inGroup (x : Word) (g : Nat) : Prop := x.toNat < (g + 1) * 6291456 ∧ g * 6291456 < x.toNat + n
  let apart : Prop := ∀ g, g < 4 → ¬ (inGroup a g ∧ inGroup b g)
  let readable : Prop := ∀ j, j < 4 → codeB (o.acb.toNat + j) ∉ k.bad ∧
    (k.strictNow = false ∨ ∀ p ∈ k.bpend, p.bank = o.acb.toNat + j → k.ic ≤ p.iss)
  let both (r : Host.Outcome State Fault Refusal) : Prop := exec (.mma o) s = r ∧ exec (.mmal o) s = r
  let traps (t : Cause) (d : Nat) : Prop := both (.next (takeTrap s ⟨t, BitVec.ofNat 32 d, 0⟩ none))
  (regions → held → apart → (∀ m ∈ k.mx, m.iss + 8 * m.steps ≤ k.ic) → readable →
    both (.next (s.setMe { k with mx := k.mx ++ [⟨k.ic, o.acb.toNat, steps, k.prof, o, a.toNat, b.toNat, c.toNat, [], 0, none, 0, none⟩] }))) ∧
  (¬ fits a 128 n → traps .illop 0x500) ∧ (fits a 128 n → ¬ fits b 128 n → traps .illop 0x501) ∧
  (fits a 128 n → fits b 128 n → o.ss.isSome = true → ¬ fits c 64 (256 * steps) → traps .illop 0x502) ∧
  (regions → ∀ j, j < 4 → o.acb.toNat + j ∉ k.alloc → (∀ i, i < j → o.acb.toNat + i ∈ k.alloc) → traps .illop (0x400 + o.acb.toNat + j)) ∧
  (regions → held → ∀ g, g < 4 → inGroup a g → inGroup b g → (∀ h, h < g → ¬ (inGroup a h ∧ inGroup b h)) → traps .bankconf g) ∧
  (regions → held → apart → ∀ ms m ms', k.mx = ms ++ m :: ms' → (∀ e ∈ ms, e.iss + 8 * e.steps ≤ k.ic) → k.ic < m.iss + 8 * m.steps →
    traps .mxbusy (m.iss + 8 * m.steps - k.ic))

/-- 10 R209, R223, R230 to R235: AZERO, ANORM, ARD, AWR, AALLOC, AFREE and ASTAT on banks that the task holds: what each queues, with its
latency. -/
def Obligations.Accumulators : Prop := ∀ (s : State) (bank nm1 : BitVec 7) (vr : BitVec 11) (sd : BitVec 6) (row : BitVec 3) (form : RowForm)
    (x : Vec),
  let k := s.me
  let b := bank.toNat
  let n := nm1.toNat + 1
  let held (n : Nat) : Prop := ∀ j, j < n → b + j ∈ k.alloc
  let readable (n : Nat) : Prop := ∀ j, j < n → codeB (b + j) ∉ k.bad ∧ (k.strictNow = false ∨ k.bankPending (b + j) false = false)
  let banks (ps : List BankPend) : Host.Outcome State Fault Refusal := .next (s.upMe (fun q => { q with bpend := q.bpend ++ ps }))
  let word (m : Nat) : Host.Outcome State Fault Refusal :=
    .next (s.upMe (fun q => q.deliver 1 (destS sd false) none (BitVec.ofNat 1024 m) 0))
  let pf := Config.profile k.prof
  let fitsAt (y : Nat) : Prop := y + n ≤ 128 ∧ (n % 4 = 0 → y % 4 = 0) ∧ ∀ j, j < n → y + j ∉ k.alloc
  (held n → exec (.azero bank nm1) s =
    banks ((upFrom b n).map (fun y => ⟨k.ic + 1, k.ic, y, (upFrom 0 256).map (fun i => (i, 0)), 0xFFFF_FFFF_FFFF_FFFF, 0⟩))) ∧
  (held n → readable n → exec (.anorm bank nm1) s =
    banks ((upFrom b n).map (fun y => ⟨k.ic + 4, k.ic, y, ((k.bank y).zipIdx).map (fun e => (e.2, (renorm pf e.1).1)), 0xFFFF_FFFF_FFFF_FFFF,
      flOr ((k.bank y).map (fun e => (renorm pf e).2))⟩))) ∧
  (held 1 → readable 1 →
    let es := ((k.bank b).drop (32 * row.toNat)).take 32
    let out (l : List Nat) (fl : Flags) : Host.Outcome State Fault Refusal :=
      .next (s.upMe (fun q => q.deliver 4 (.v vr) (some 5) (packElems 32 l) fl))
    exec (.ard vr bank row .rawlo) s = out (es.map (fun e => e.toNat % 2 ^ 32)) (flOr (es.map (fun _ => 0))) ∧
    exec (.ard vr bank row .rawhi) s = out (es.map (fun e => e.toNat / 2 ^ 32)) (flOr (es.map (fun _ => 0))) ∧
    exec (.ard vr bank row .head) s = out (es.map headroom) (flOr (es.map (fun _ => 0))) ∧
    ∀ t, let r (e : Word) := roundTo (fmtD t) (if pf.ardRtz then .rtz else .rne) (accVal e)
      exec (.ard vr bank row (.conv t)) s = out (es.map (fun e => (r e).1)) (flOr (es.map (fun e => (r e).2 ||| nfOf t (r e).1)))) ∧
  (s.rdV 41 vr.toNat = .ok x → held 1 → exec (.awr vr bank row form) s =
    banks [⟨k.ic + 2, k.ic, b, (upFrom 0 32).map (fun l => (32 * row.toNat + l, match form with
        | .conv t => elemOf (dec t (elemAt 32 x l)) | .rawlo => BitVec.ofNat 64 (elemAt 32 x l)
        | .rawhi => BitVec.ofNat 64 (elemAt 32 x l * 2 ^ 32) | .head => 0)),
      (match form with | .rawlo => 0xFFFF_FFFF | .rawhi => 0xFFFF_FFFF_0000_0000 | _ => 0xFFFF_FFFF_FFFF_FFFF), 0⟩]) ∧
  (∀ y, k.alloc.length + n ≤ k.quota → fitsAt y → (∀ z, z < y → ¬ fitsAt z) → exec (.aalloc sd nm1) s = .next (s.upMe (fun q =>
    { q.deliver 1 (destS sd false) none (BitVec.ofNat 1024 y) 0 with bound := q.bound ++ [.alloc y n] }))) ∧
  ((k.quota < k.alloc.length + n ∨ ∀ y, ¬ fitsAt y) → exec (.aalloc sd nm1) s = word (2 ^ 64 - 1)) ∧
  (held n → (∀ j, j < n → k.bankPending (b + j) false = false) →
    exec (.afree bank nm1) s = .next (s.upMe (fun q => { q with bound := q.bound ++ [.free b n] }))) ∧
  ((∀ m ∈ k.mx, m.iss + 8 * m.steps ≤ k.ic) → exec (.astat sd) s = word (2 ^ 8 * k.quota + k.alloc.length)) ∧
  (∀ ms m ms', k.mx = ms ++ m :: ms' → (∀ e ∈ ms, e.iss + 8 * e.steps ≤ k.ic) → k.ic < m.iss + 8 * m.steps →
    exec (.astat sd) s = word (2 ^ 40 * m.steps + 2 ^ 32 * ((k.ic - m.iss) / 8) + 2 ^ 24 + 2 ^ 8 * k.quota + k.alloc.length)) ∧
  (∀ j, j < n → b + j ∉ k.alloc → (∀ i, i < j → b + i ∈ k.alloc) →
    let t : TrapInfo := ⟨.illop, BitVec.ofNat 32 (0x400 + b + j), 0⟩
    exec (.azero bank nm1) s = .next (takeTrap s t none) ∧ exec (.anorm bank nm1) s = .next (takeTrap s t none) ∧
    exec (.afree bank nm1) s = .next (takeTrap s t none))

/-- 10 R218: adding a finite partial to a finite element of a smaller or equal unit is exact while the 54-bit guard holds the sum, and raises
no flag; a sum that it does not hold makes the element NaN, with HR and NF. -/
def Obligations.AccumulatorAddition : Prop := ∀ (pf : Config.Profile) (e : Word) (m v n q : Int),
  accOf e = .fin m v → m ≠ 0 → n ≠ 0 → v ≤ q →
  let t := m + n * 2 ^ (q - v).toNat
  (-(2 ^ 53) ≤ t → t < 2 ^ 53 → accOf (accAdd pf e (.fin n q)).1 = .fin t v ∧ (accAdd pf e (.fin n q)).2 = (0, false)) ∧
  (t < -(2 ^ 53) ∨ 2 ^ 53 ≤ t → accAdd pf e (.fin n q) = (accNan, flHR ||| flNF, true))

/-- 13 R262, R263, R268, R269, 11 R240, R241: LD, VLD and VLDS of scratch, VLD of a FIFO slice, and SPL: the bytes as the core sees them, with
latency 6, or 1 for SPL; an unaligned address traps. -/
def Obligations.ScratchLoads : Prop := ∀ (s : State) (b st : Word),
  let k := s.me
  let gives (lat : Nat) (dest : Dest) (val : Vec) (q : RqSt) : Host.Outcome State Fault Refusal :=
    .next (s.setMe { k with pend := k.pend ++ [loadResult k lat dest val q], seq := k.seq + 1 })
  (∀ o : MemS, s.rdS 49 o.base.toNat = .ok b →
    let a := b + o.off.signExtend 64
    let n := 2 ^ o.sz.toNat
    let x := leNat (s.scratchBytes a.toNat n)
    (a.toNat % n = 0 → ScratchOk s a.toNat n → exec (.ld o) s = gives 6 (destS o.r false)
      ((if o.sx then BitVec.ofInt 64 (sx x (8 * n)) else BitVec.ofNat 64 x).setWidth 1024) (s.scratchSt a.toNat n)) ∧
    (a.toNat % n ≠ 0 → exec (.ld o) s = .next (takeTrap s ⟨.illop, 0x700, a⟩ none))) ∧
  (∀ o : MemV, s.rdS 49 o.base.toNat = .ok b →
    let a := b + o.off.signExtend 64 * 128
    (a.toNat % 128 = 0 → ScratchOk s a.toNat 128 →
      exec (.vld o) s = gives 6 (.v o.v) (bytesVec (s.scratchBytes a.toNat 128)) (s.scratchSt a.toNat 128)) ∧
    (a.toNat % 128 ≠ 0 → exec (.vld o) s = .next (takeTrap s ⟨.illop, 0x700, a⟩ none)) ∧
    (∀ cl n e es, a.toNat % 128 = 0 → isNmv s.cur = false → cl = coreCluster s.cur → a.toNat < 0x180_0000 → a.toNat / 786432 = n →
      (s.cluster cl).slice n = ⟨.fifo, e :: es⟩ → e.tc < s.tc → ∃ t, exec (.vld o) s = .next t ∧ (t.cluster cl).slice n = ⟨.fifo, es⟩ ∧
      (∀ m, m ≠ n → (t.cluster cl).slice m = (s.cluster cl).slice m) ∧
      t.me.pend = k.pend ++ [loadResult k 6 (.v o.v) e.data (if e.poison then .poison a.toNat else .ready)])) ∧
  (∀ o : MemVS, s.rdS 49 o.base.toNat = .ok b → s.rdS 50 o.stride.toNat = .ok st →
    let a := b + o.off.signExtend 64 * 4
    let as := (upFrom 0 32).map (fun l => a + BitVec.ofNat 64 l * st)
    a.toNat % 4 = 0 → st.toNat % 4 = 0 → (∀ x ∈ as, ScratchOk s x.toNat 4) → (∀ x ∈ as, s.scratchSt x.toNat 4 = .ready) →
    exec (.vlds o) s = gives 6 (.v o.v) (ofLanes (as.map (fun x => BitVec.ofNat 32 (leNat (s.scratchBytes x.toNat 4))))) .ready) ∧
  (∀ o : MemVS, s.rdS 49 o.base.toNat = .ok b → s.rdS 50 o.stride.toNat = .ok st →
    let a := b + o.off.signExtend 64 * 4
    (a.toNat % 4 ≠ 0 → exec (.vlds o) s = .next (takeTrap s ⟨.illop, 0x700, a⟩ none)) ∧
    (a.toNat % 4 = 0 → st.toNat % 4 ≠ 0 → exec (.vlds o) s = .next (takeTrap s ⟨.illop, 0x700, st⟩ none))) ∧
  (∀ (r : SVReg) (off : BitVec 15), let n := match r with | .s _ => 8 | .v _ => 128
    (off.toNat + n ≤ 0x6000 → (∀ u ∈ touchedUnits off.toNat n, u ∉ k.badSpill) →
      exec (.spl r off) s = gives 1 (svDest r) (bytesVec (k.spill.bytes off.toNat n)) .ready) ∧
    (0x6000 < off.toNat + n → exec (.spl r off) s = .next (takeTrap s ⟨.illop, BitVec.ofNat 32 (0x600 + off.toNat / 8), 0⟩ none)))

/-- 13 R264, R268, R269, 11 R241, 15 R297: ST, VST and VSTS withhold the bytes of the addresses computed, and beside them the entry that a FIFO
slice takes of a vector; a strong one leaves behind the entries before it; SPS queues its write of spill memory. No register and no byte of
memory changes at issue; an unaligned address, and an offset beyond spill memory, trap. -/
def Obligations.ScratchStores : Prop := ∀ (s : State) (b st v : Word) (w : Vec) (p : BitVec 32),
  let k := s.me
  let keeps (i : Instr) (strong : Bool) (e : SbEnt) : Prop :=
    let t := s.setMe { k with sbuf := k.sbuf ++ [e], release := if strong then k.sbuf.length + 1 else k.release }
    exec i s = .next t ∧ SameMemory s t ∧ SameRegs k t.me
  let traps (i : Instr) (d : Nat) (a : Word) : Prop := exec i s = .next (takeTrap s ⟨.illop, BitVec.ofNat 32 d, a⟩ none)
  let lane4 (f : Nat → Nat) : List (Nat × Byte) := (upFrom 0 32).flatMap (fun l =>
    if p.getLsbD l then (upFrom 0 4).map (fun j => (f l + j, BitVec.ofNat 8 ((lane w l).toNat / 256 ^ j))) else [])
  (∀ o : MemS, s.rdS 49 o.base.toNat = .ok b → s.rdS 50 o.r.toNat = .ok v →
    let a := b + o.off.signExtend 64
    let n := 2 ^ o.sz.toNat
    a.toNat % n = 0 → ScratchOk s a.toNat n →
    keeps (.st o) o.strong (.scratch a.toNat ((upFrom 0 n).map (fun j => (a.toNat + j, BitVec.ofNat 8 (v.toNat / 256 ^ j)))) none s.tc)) ∧
  (∀ o : MemS, s.rdS 49 o.base.toNat = .ok b → s.rdS 50 o.r.toNat = .ok v → let a := b + o.off.signExtend 64
    a.toNat % 2 ^ o.sz.toNat ≠ 0 → traps (.st o) 0x700 a) ∧
  (∀ o : MemV, s.rdS 49 o.base.toNat = .ok b → s.rdV 50 o.v.toNat = .ok w → s.rdP 51 o.p.toNat = .ok p → let a := b + o.off.signExtend 64 * 128
    a.toNat % 128 ≠ 0 → traps (.vst o) 0x700 a) ∧
  (∀ o : MemVS, s.rdS 49 o.base.toNat = .ok b → s.rdS 50 o.stride.toNat = .ok st → s.rdV 51 o.v.toNat = .ok w → s.rdP 52 o.p.toNat = .ok p →
    let a := b + o.off.signExtend 64 * 4
    (a.toNat % 4 ≠ 0 → traps (.vsts o) 0x700 a) ∧ (a.toNat % 4 = 0 → st.toNat % 4 ≠ 0 → traps (.vsts o) 0x700 st)) ∧
  (∀ (r : SVReg) (off : BitVec 15), s.rdSV 49 r = .ok w → 0x6000 < off.toNat + (match r with | .s _ => 8 | .v _ => 128) →
    traps (.sps r off) (0x600 + off.toNat / 8) 0) ∧
  (∀ o : MemV, s.rdS 49 o.base.toNat = .ok b → s.rdV 50 o.v.toNat = .ok w → s.rdP 51 o.p.toNat = .ok p →
    let a := b + o.off.signExtend 64 * 128
    a.toNat % 128 = 0 → ScratchOk s a.toNat 128 ∨ (s.fifoAt a.toNat).isSome = true →
      keeps (.vst o) o.strong (.scratch a.toNat (lane4 (fun l => a.toNat + 4 * l)) (some (maskLanes p w)) s.tc)) ∧
  (∀ o : MemVS, s.rdS 49 o.base.toNat = .ok b → s.rdS 50 o.stride.toNat = .ok st → s.rdV 51 o.v.toNat = .ok w → s.rdP 52 o.p.toNat = .ok p →
    let a := b + o.off.signExtend 64 * 4
    let at4 (l : Nat) : Word := a + BitVec.ofNat 64 l * st
    a.toNat % 4 = 0 → st.toNat % 4 = 0 →
    (s.fifoAt a.toNat = none ∧ ∀ l, l < 32 → ScratchOk s (at4 l).toNat 4) ∨
      ((s.fifoAt a.toNat).isSome = true ∧ ∀ l, l < 32 → s.fifoAt (at4 l).toNat = s.fifoAt a.toNat) →
    keeps (.vsts o) o.strong (.scratch a.toNat (lane4 (fun l => (at4 l).toNat)) (some (maskLanes p w)) s.tc)) ∧
  (∀ (r : SVReg) (off : BitVec 15), s.rdSV 49 r = .ok w → let n := match r with | .s _ => 8 | .v _ => 128
    off.toNat + n ≤ 0x6000 → exec (.sps r off) s = .next (s.setMe { k with bound := k.bound ++ [.spill off.toNat n w] }) ∧
    (∀ (q : Core) (x : Nat), (q.bWrite (.spill off.toNat n w)).spill.get x =
      if off.toNat ≤ x ∧ x < off.toNat + n then BitVec.ofNat 8 (w.toNat / 256 ^ (x - off.toNat)) else q.spill.get x))

/-- 13 R264, R268: after a weak ST its core sees the bytes stored, and every other byte of scratch as before; the other cores of the cluster
see none of it until it leaves. -/
def Obligations.StoreThenLoad : Prop := ∀ (s t : State) (o : MemS) (b v : Word), s.rdS 49 o.base.toNat = .ok b → s.rdS 50 o.r.toNat = .ok v →
  let a := b + o.off.signExtend 64
  let n := 2 ^ o.sz.toNat
  a.toNat % n = 0 → ScratchOk s a.toNat n → exec (.st o) s = .next t →
  t.scratchBytes a.toNat n = toBytes n v.toNat ∧
  (∀ x, x < a.toNat ∨ a.toNat + n ≤ x → t.scratchBytes x 1 = s.scratchBytes x 1) ∧
  (∀ c, t.cluster c = s.cluster c) ∧ (∀ c, c ≠ s.cur → t.core c = s.core c)

/-- 13 R265, R271 to R273: GLD, LDX, GST, GACC and the atomics: what each queues, withholds or waits for; a translation that faults for good
traps all of them but LDX and the weak store at issue (that a load traps then is the model's reading, log 78); an unaligned address traps,
and a full return queue stalls. -/
def Obligations.GlobalAccess : Prop := ∀ (s : State) (b : Word),
  let k := s.me
  let id := s.nextId
  let latch : Option (BitVec 3) := if k.mon.isSome then none else some 4
  let loads (i : Instr) (dest : Dest) (a : Word) (n tag : Nat) (sgn zero : Bool) : Prop :=
    (∀ rs, s.xlate (engOf s.cur) a.toNat tag .read = .fault rs → rs.resolvable = true) → ∃ t r, exec i s = .next t ∧
    look t.reqs id = some r ∧ r.k = .load sgn ∧ r.core = s.cur ∧ r.va = a ∧ r.size = n ∧ r.tag = tag ∧ r.zero = zero ∧ r.pend = k.seq ∧
    .globalReadRequest (.core id) ∈ t.inflight ∧ t.me.pend = k.pend ++ [queuedResult k dest latch a] ∧ SameMemory s t ∧ SameRegs k t.me
  (∀ o : MemG, s.rdS 49 o.base.toNat = .ok b → let a := b + o.off.signExtend 64
    let n := match o.r with | .s _ => 2 ^ o.sz.toNat | .v _ => 128
    a.toNat % n = 0 →
    (RqRoom k → loads (.gld o) (svDest o.r) a n (s.resolve k a.toNat).1 o.sx (s.resolve k a.toNat).2) ∧
    (∀ rs, RqRoom k → s.xlate (engOf s.cur) a.toNat (s.resolve k a.toNat).1 .read = .fault rs → rs.resolvable = false →
      exec (.gld o) s = .next (takeTrap s ⟨.pagef, BitVec.ofNat 32 rs.code, a⟩ none)) ∧
    (∀ v, s.rdSV 50 o.r = .ok v →
      let q (st : Bool) := s.newReq (.store st) a 0 n v
      (o.strong = false → exec (.gst o) s = .next (s.setMe { k with sbuf := k.sbuf ++ [.req { q false with done := false }] })) ∧
      (∀ pa, o.strong = true → s.xlate (engOf s.cur) a.toNat (s.resolve k a.toNat).1 .write = .ok pa → exec (.gst o) s =
        .next (s.setMe { k with release := k.sbuf.length, op := some (.access { q true with pa := pa } true) })) ∧
      (∀ rs, o.strong = true → s.xlate (engOf s.cur) a.toNat (s.resolve k a.toNat).1 .write = .fault rs → rs.resolvable = false →
        exec (.gst o) s = .next (takeTrap s ⟨.pagef, BitVec.ofNat 32 rs.code, a⟩ (some (q true)))))) ∧
  (∀ (r : SVReg) (base st : BitVec 6) (off : BitVec 18) (x : Word), s.rdS 49 base.toNat = .ok b → s.rdS 50 st.toNat = .ok x →
    let a := b + off.signExtend 64
    let n := match r with | .s _ => 8 | .v _ => 128
    a.toNat % n = 0 → RqRoom k →
    (∀ w, inWindow (s.windowsOf k) a.toNat = some w → loads (.ldx r base st off) (svDest r) a n (x.toNat % 4096) false w.zero) ∧
    (inWindow (s.windowsOf k) a.toNat = none → loads (.ldx r base st off) (svDest r) a n 0 false false)) ∧
  (∀ (vs : BitVec 11) (base sl : BitVec 6) (v : Vec) (l : Word) (pa : Nat), s.rdS 49 base.toNat = .ok b → s.rdV 50 vs.toNat = .ok v →
    s.rdS 51 sl.toNat = .ok l → b.toNat % 128 = 0 → isNmv s.cur = false →
    s.xlate (engOf s.cur) b.toNat (s.resolve k b.toNat).1 .gacc = .ok pa → exec (.gacc vs base sl) s = .next (s.setMe
      { k with sbuf := k.sbuf ++ [.req (s.newReq (.gacc (l.toNat % 65536)) b pa 128 v)] })) ∧
  (∀ (o : AtOp) (v c : Word) (pa : Nat), s.rdS 49 o.base.toNat = .ok b → s.rdS 50 o.sv.toNat = .ok v →
    b.toNat % (if o.w64 then 8 else 4) = 0 → RqRoom k → s.xlate (engOf s.cur) b.toNat (s.resolve k b.toNat).1 .write = .ok pa →
    let does (i : Instr) (kind : AtKind) (c : Word) : Prop := exec i s = .next (s.setMe { k with
      release := k.sbuf.length, pend := k.pend ++ [queuedResult k (destS o.sd false) latch b], seq := k.seq + 1
      op := some (.access (s.newReq (.atomic kind o.w64 o.sgn v c) b pa (if o.w64 then 8 else 4) 0) true) })
    does (.atadd o) .add 0 ∧ does (.atmin o) .min 0 ∧ does (.atmax o) .max 0 ∧ does (.atswp o) .swp 0 ∧
    (s.rdS 51 o.sc.toNat = .ok c → does (.atcas o) .cas c)) ∧
  (let odd (i : Instr) (a : Word) : Prop := exec i s = .next (takeTrap s ⟨.illop, 0x700, a⟩ none)
   (∀ o : MemG, s.rdS 49 o.base.toNat = .ok b → let a := b + o.off.signExtend 64
     let n := match o.r with | .s _ => 2 ^ o.sz.toNat | .v _ => 128
     (a.toNat % n ≠ 0 → odd (.gld o) a ∧ ∀ v, s.rdSV 50 o.r = .ok v → odd (.gst o) a) ∧
     (a.toNat % n = 0 → ¬ RqRoom k → exec (.gld o) s = .next s)) ∧
   (∀ (r : SVReg) (base st : BitVec 6) (off : BitVec 18) (x : Word), s.rdS 49 base.toNat = .ok b → s.rdS 50 st.toNat = .ok x →
     let a := b + off.signExtend 64
     let n := match r with | .s _ => 8 | .v _ => 128
     (a.toNat % n ≠ 0 → odd (.ldx r base st off) a) ∧ (a.toNat % n = 0 → ¬ RqRoom k → exec (.ldx r base st off) s = .next s)) ∧
   (∀ (vs : BitVec 11) (base sl : BitVec 6) (v : Vec) (l : Word), s.rdS 49 base.toNat = .ok b → s.rdV 50 vs.toNat = .ok v →
     s.rdS 51 sl.toNat = .ok l →
     (isNmv s.cur = true → exec (.gacc vs base sl) s = .next (takeTrap s ⟨.illop, 0x706, 0⟩ none)) ∧
     (isNmv s.cur = false → b.toNat % 128 ≠ 0 → odd (.gacc vs base sl) b) ∧
     (∀ rs, isNmv s.cur = false → b.toNat % 128 = 0 → s.xlate (engOf s.cur) b.toNat (s.resolve k b.toNat).1 .gacc = .fault rs →
       rs.resolvable = false → exec (.gacc vs base sl) s = .next (takeTrap s ⟨.pagef, BitVec.ofNat 32 rs.code, b⟩ none))) ∧
   (∀ (o : AtOp) (v c : Word), s.rdS 49 o.base.toNat = .ok b → s.rdS 50 o.sv.toNat = .ok v → s.rdS 51 o.sc.toNat = .ok c →
     let n := if o.w64 then 8 else 4
     let all (r : Host.Outcome State Fault Refusal) : Prop := exec (.atadd o) s = r ∧ exec (.atmin o) s = r ∧ exec (.atmax o) s = r ∧
       exec (.atswp o) s = r ∧ exec (.atcas o) s = r
     (b.toNat % n ≠ 0 → all (.next (takeTrap s ⟨.illop, 0x700, b⟩ none))) ∧
     (b.toNat % n = 0 → ¬ RqRoom k → all (.next s)) ∧
     (∀ rs, b.toNat % n = 0 → RqRoom k → s.xlate (engOf s.cur) b.toNat (s.resolve k b.toNat).1 .write = .fault rs → rs.resolvable = false →
       all (.next (takeTrap s ⟨.pagef, BitVec.ofNat 32 rs.code, b⟩ none)))))

/-- 13 R274 to R276, R287, R288: PHASE and FENCE make the core wait; CTLD waits for its table; BKLD reads sums of the core's own bucket, and
BKST of an untagged bucket stores the words of its vector there and nothing else; an unaligned table, and sums outside a share or a
bucket, trap. That both reach the sums under the bucket's tag and policy is the model's reading (log 84). -/
def Obligations.WaitsAndSums : Prop := ∀ (s : State) (x : Word),
  let k := s.me
  let waits (o : CoreOp) : Host.Outcome State Fault Refusal := .next (s.setMe { k with op := some o })
  exec (.phase .core) s = .next s ∧ exec (.phase .cluster) s = waits (.phase .cluster) ∧ exec (.phase .die) s = waits (.phase .die) ∧
  exec (.phase .launch) s = waits (.phase .launch) ∧ exec (.phase .package) s = waits (.phase .package) ∧
  (∀ lw lh, s.subTooLarge lw.toNat lh.toNat = false → exec (.phase (.sub lw lh)) s = waits (.phase (.sub lw lh))) ∧
  (∀ lw lh, s.subTooLarge lw.toNat lh.toNat = true → exec (.phase (.sub lw lh)) s = .next (takeTrap s ⟨.illop, 0x704, 0⟩ none)) ∧
  (∀ ca cb, exec (.fence ca cb) s = waits (.fence ca cb)) ∧
  (∀ base, s.rdS 49 base.toNat = .ok x → x.toNat % 64 = 0 → (∀ p ∈ pagesOf x.toNat 1024, ∃ pa,
      s.xlate (engOf s.cur) (p % 2 ^ 64) (s.resolve k x.toNat).1 .read = .ok pa) → exec (.ctld base) s = waits (.ctld x)) ∧
  (∀ (v : BitVec 11) (si : BitVec 6) (sh : Share) (b : Bucket), s.rdS 49 si.toNat = .ok x → k.share = some sh →
    look (s.stack sh.stack).buckets sh.bucket = some b → b.ident = sh.ident → let i := x.toNat % 2 ^ 20
    let free (write : Bool) : Prop := s.paHeld (b.sumPa i) (4 * Nat.min 32 (b.count - i)) b.tag b.zero write = false
    i % 32 = 0 → i < b.count →
    (RqRoom k → free false → (∀ e, i ≤ e → e < i + 32 → e < b.count → s.cellPoisoned b.tag (b.sumPa e) 4 b.zero = false) →
      exec (.bkld v si) s = .next ((s.recallRead (b.sumPa i) (4 * Nat.min 32 (b.count - i)) b.tag b.zero none).upMe (fun q =>
        { q with seq := q.seq + 1, pend := q.pend ++ [⟨q.ic + 12, q.ic, q.seq, .v v,
          vecOf (fun l => if i + l < b.count then BitVec.ofNat 32 (leNat (s.cellRead b.tag (b.sumPa (i + l)) 4 b.zero)) else 0),
          some 4, 0, true, .ready, 0⟩] }))) ∧
    (∀ w : Vec, s.rdV 50 v.toNat = .ok w → b.tag = 0 → b.base.toNat % 128 = 0 → free true → ∃ t, exec (.bkst v si) s = .next t ∧
      (∀ a, (∀ e, e < 32 → i + e < b.count → a < b.sumPa (i + e) ∨ b.sumPa (i + e) + 4 ≤ a) → t.mem.get a = s.mem.get a) ∧
      (∀ e, e < 32 → i + e < b.count → t.mem.nat (b.sumPa (i + e)) 4 = (lane w e).toNat) ∧ t.cores = s.cores)) ∧
  (∀ base, s.rdS 49 base.toNat = .ok x → x.toNat % 64 ≠ 0 → exec (.ctld base) s = .next (takeTrap s ⟨.illop, 0x700, x⟩ none)) ∧
  (∀ (v : BitVec 11) (si : BitVec 6) (w : Vec), s.rdS 49 si.toNat = .ok x → s.rdV 50 v.toNat = .ok w →
    let off : Prop := exec (.bkld v si) s = .next (takeTrap s ⟨.illop, 0x707, 0⟩ none) ∧
      exec (.bkst v si) s = .next (takeTrap s ⟨.illop, 0x707, 0⟩ none)
    (k.share = none → off) ∧ ∀ sh b, k.share = some sh → look (s.stack sh.stack).buckets sh.bucket = some b → let i := x.toNat % 2 ^ 20
      b.ident ≠ sh.ident ∨ i % 32 ≠ 0 ∨ b.count ≤ i → off)

/-- 13 R277 to R280, R284, 16 R329: CPY, CPYS and GTH join their engine's queue and deliver the promise of the request 2 issue cycles on; a
full queue stalls, and a descriptor outside its limits traps; TAGQ queues its result. The promise is a free value of the model (log 8). -/
def Obligations.EngineRequests : Prop := ∀ (s : State) (sd s1 s2 s3 : BitVec 6) (d a n : Word),
  s.rdS 57 s1.toNat = .ok d → s.rdS 58 s2.toNat = .ok a → s.rdS 59 s3.toNat = .ok n →
  let k := s.me
  let id := s.nextId
  let accepted (i : Instr) (P : State → Eng → Prop) : Prop := ∃ t e, exec i s = .next t ∧ P t e ∧ e.core = s.cur ∧ e.rid = k.rid ∧
    e.seqno = k.pseq ∧ e.promise = (Config.promise id).toNat ∧ t.me.pseq = (k.pseq + 1) % 4096 ∧ t.nextId = id + 1 ∧
    t.me.pend = k.pend ++ [⟨k.ic + 2, k.ic, k.seq, destS sd false, (Config.promise id).setWidth 1024, none, 0, false, .ready, 0⟩] ∧
    SameMemory s t ∧ SameRegs k t.me
  (isNmv s.cur = false →
    (s.engsOf s.cur [0, 1, 2] < 16 →
      (n.toNat % 2 ^ 32 ≠ 0 → accepted (.cpy sd s1 s2 s3) (fun t e => look t.engs id = some e ∧ e.eng = 0 ∧ e.dst = d ∧ e.src = a ∧
        e.k = .copy 1 (n.toNat % 2 ^ 32) 0 0 none ∧ .copyComplete id ∈ t.inflight)) ∧
      (n.toNat % 2 ^ 32 = 0 → accepted (.cpy sd s1 s2 s3) (fun t _ => look t.engs id = none)) ∧
      (let f (o m : Nat) : Nat := k.spill.nat (n.toNat + o) m
       n.toNat < 0x5FC0 → n.toNat % 64 = 0 → n.toNat / 128 ∉ k.badSpill → 1 ≤ f 0 4 → f 0 4 ≤ 1048576 → 1 ≤ f 4 4 → f 4 4 ≤ 16777216 →
       f 0x18 8 % 8 = 0 → accepted (.cpys sd s1 s2 s3) (fun t e => look t.engs id = some e ∧ e.eng = 1 ∧ e.dst = d ∧ e.src = a ∧
        e.k = .copy (f 0 4) (f 4 4) (BitVec.ofNat 64 (f 8 8)) (BitVec.ofNat 64 (f 0x10 8))
          (if f 0x18 8 = 0 then none else some (BitVec.ofNat 64 (f 0x18 8))) ∧ .copyComplete id ∈ t.inflight))) ∧
    (16 ≤ s.engsOf s.cur [0, 1, 2] → exec (.cpy sd s1 s2 s3) s = .next s) ∧
    (∀ spt, s.engsOf s.cur [3] < 16 → accepted (.gth sd s1 s2 s3 spt) (fun t e => look t.engs id = some e ∧ e.eng = 3 ∧ e.src = a ∧
      e.dst = BitVec.ofNat 64 (0xF0 * 2 ^ 56 + d.toNat % 2 ^ 25) ∧ e.k = .gather spt.toNat (n.toNat % 2 ^ 32) ∧
      .gatherRequest id ∈ t.inflight))) ∧
  (isNmv s.cur = true → ∀ spt, let t := takeTrap s ⟨.illop, 0x706, 0⟩ none
    exec (.cpy sd s1 s2 s3) s = .next t ∧ exec (.cpys sd s1 s2 s3) s = .next t ∧ exec (.gth sd s1 s2 s3 spt) s = .next t) ∧
  (isNmv s.cur = false →
    (∀ spt, 16 ≤ s.engsOf s.cur [3] → exec (.gth sd s1 s2 s3 spt) s = .next s) ∧
    (let f (o m : Nat) : Nat := k.spill.nat (n.toNat + o) m
     let bad : Prop := f 0 4 = 0 ∨ 1048576 < f 0 4 ∨ f 4 4 = 0 ∨ 16777216 < f 4 4 ∨ f 0x18 8 % 8 ≠ 0
     let place : Prop := n.toNat < 0x5FC0 ∧ n.toNat % 64 = 0
     (¬ place ∨ n.toNat / 128 ∉ k.badSpill ∧ bad → exec (.cpys sd s1 s2 s3) s = .next (takeTrap s ⟨.illop, 0x703, 0⟩ none)) ∧
     (place → n.toNat / 128 ∉ k.badSpill → ¬ bad → 16 ≤ s.engsOf s.cur [0, 1, 2] → exec (.cpys sd s1 s2 s3) s = .next s))) ∧
  (¬ RqRoom k → exec (.tagq sd s1) s = .next s) ∧
  (RqRoom k → ∃ t r, exec (.tagq sd s1) s = .next t ∧ look t.reqs id = some r ∧ r.k = .tagq (d.toNat % 4096) ∧ r.pend = k.seq ∧
    .tagqAnswer id ∈ t.inflight ∧ t.me.pend = k.pend ++ [queuedResult k (destS sd false) none 0] ∧ SameMemory s t ∧ SameRegs k t.me)

/-- 13 R282, R283, R285, 16 R325 to R330, 22 R418 to R420, 20 R380: a stitching instruction whose operands pass their checks only says what
its stitch point will do; each check that fails traps. -/
def Obligations.StitchingInstructions : Prop := ∀ (s : State) (sd s1 s2 s3 : BitVec 6) (n : BitVec 3) (x y z : Word),
  s.rdS 57 s1.toNat = .ok x → s.rdS 58 s2.toNat = .ok y → s.rdS 59 s3.toNat = .ok z →
  let k := s.me
  let gives (o : StitchOp) : Host.Outcome State Fault Refusal := .next (s.setMe { k with stitchOp := some o })
  let traps (d : BitVec 32) : Host.Outcome State Fault Refusal := .next (takeTrap s ⟨.illop, d, 0⟩ none)
  (isNmv s.cur = false →
    (x.toNat % 64 = 0 → exec (.lnch s1) s = gives (.lnch x)) ∧
    (x.toNat % 64 ≠ 0 → exec (.lnch s1) s = .next (takeTrap s ⟨.illop, 0x700, x⟩ none)) ∧
    exec (.cancel s1) s = gives (.cancel (x.toNat % 2 ^ 32)) ∧
    exec (.tagnew sd s1 s2) s = gives (.tagnew sd (x.toNat % 4096) (y.toNat % 2 ^ 24)) ∧
    (let t := x.toNat % 4096
     (t ≠ 0 → t ≠ 4095 → t ≠ k.ctag.toNat → exec (.tagret s1) s = gives (.tagret t)) ∧
     (t = 0 ∨ t = 4095 ∨ t = k.ctag.toNat → exec (.tagret s1) s = traps 0x803)) ∧
    (∀ pa, x.toNat % 64 = 0 → s.xlate (engOf s.cur) x.toNat (s.resolve k x.toNat).1 .read = .ok pa →
      exec (.bkdef sd s1) s = gives (.bkdef sd x)) ∧
    (∀ r, look k.sleeves n.toNat = some r → r.fault = false → x.toNat % 8192 ≤ r.next - r.head →
      exec (.sladv sd s1 n) s = gives (.sladv sd n (x.toNat % 8192))) ∧
    (look k.sleeves n.toNat = none → exec (.sladv sd s1 n) s = traps 0x702) ∧
    (let f (o m : Nat) : Nat := k.spill.nat (x.toNat + o) m
     x.toNat < 0x5FC0 → x.toNat % 64 = 0 → x.toNat / 128 ∉ k.badSpill → f 0x10 4 % 128 = 0 → f 0x14 4 % 128 = 0 → f 0x18 4 ≤ f 0x14 4 →
     f 0x18 4 % 128 = 0 → 128 ≤ f 0x18 4 → f 0x18 4 ≤ 786432 → f 0x1C 2 ≠ 0 → f 0x1C 2 ≤ 4096 → f 0x20 4 ≠ 0 → f 0x24 2 ≤ f 0x1C 2 →
     exec (.slset s1 n) s = gives (.slset n ⟨BitVec.ofNat 64 (f 0 8), BitVec.ofNat 64 (f 8 8), f 0x10 4, f 0x14 4, f 0x18 4, f 0x1C 2, f 0x20 4,
      f 0x24 2, 0, Nat.min (f 0x24 2) (f 0x20 4), [], false, []⟩)) ∧
    (∀ mode rid l, k.rid = some rid → look s.launches rid = some l → l.covers (coreCluster s.cur) = true →
      (mode ≠ .fifo → ∀ i, i < 32 → x.getLsbD i = true → ((s.cluster (coreCluster s.cur)).slice i).mode = .fifo →
        ((s.cluster (coreCluster s.cur)).slice i).fifo = []) →
      exec (.slmode s1 mode) s = gives (.slmode (x.setWidth 32) mode s.tc))) ∧
  (isNmv s.cur = true → exec (.lnch s1) s = traps 0x706 ∧ exec (.cancel s1) s = traps 0x706 ∧ exec (.tagret s1) s = traps 0x706 ∧
    exec (.tagnew sd s1 s2) s = traps 0x706 ∧ exec (.bkdef sd s1) s = traps 0x706 ∧ exec (.slset s1 n) s = traps 0x706 ∧
    exec (.sladv sd s1 n) s = traps 0x706 ∧ ∀ mode, exec (.slmode s1 mode) s = traps 0x706) ∧
  (isNmv s.cur = false →
    (x.toNat % 64 ≠ 0 → exec (.bkdef sd s1) s = .next (takeTrap s ⟨.illop, 0x700, x⟩ none)) ∧
    (∀ r, look k.sleeves n.toNat = some r → r.fault = true ∨ r.next - r.head < x.toNat % 8192 → exec (.sladv sd s1 n) s = traps 0x702) ∧
    (let f (o m : Nat) : Nat := k.spill.nat (x.toNat + o) m
     let place : Prop := x.toNat < 0x5FC0 ∧ x.toNat % 64 = 0
     let bad : Prop := f 0x10 4 % 128 ≠ 0 ∨ f 0x14 4 % 128 ≠ 0 ∨ f 0x14 4 < f 0x18 4 ∨ f 0x18 4 % 128 ≠ 0 ∨ f 0x18 4 < 128 ∨
       786432 < f 0x18 4 ∨ f 0x1C 2 = 0 ∨ 4096 < f 0x1C 2 ∨ f 0x20 4 = 0 ∨ f 0x1C 2 < f 0x24 2
     ¬ place ∨ x.toNat / 128 ∉ k.badSpill ∧ bad → exec (.slset s1 n) s = traps 0x703) ∧
    (∀ mode rid l, k.rid = some rid → look s.launches rid = some l → let cl := s.cluster (coreCluster s.cur)
      let busy (i : Nat) : Prop := x.getLsbD i = true ∧ (cl.slice i).mode = .fifo ∧ (cl.slice i).fifo ≠ []
      (l.covers (coreCluster s.cur) = false → exec (.slmode s1 mode) s = traps 0x705) ∧
      (∀ i, l.covers (coreCluster s.cur) = true → mode ≠ .fifo → i < 32 → busy i → (∀ j, j < i → ¬ busy j) →
        exec (.slmode s1 mode) s = .next (takeTrap s ⟨.fifobusy, BitVec.ofNat 32 i, 0⟩ none)))) ∧
  (∀ sh, k.share = some sh → x.toNat ≠ 2 ^ 27 * sh.stack + sh.bucket ∨ sh.done = true → exec (.bkdone s1) s = traps 0x708) ∧
  (y.toNat % 64 ≠ 0 → exec (.push sd s1 s2 s3) s = traps 0x700) ∧
  (∀ sh, k.share = some sh → x.toNat = 2 ^ 27 * sh.stack + sh.bucket → sh.done = false → exec (.bkdone s1) s = gives .bkdone) ∧
  (k.share = none → exec (.bkdone s1) s = traps 0x708) ∧
  (y.toNat % 64 = 0 →
    exec (.push sd s1 s2 s3) s = gives (.push sd x (BitVec.ofNat 64 (y.toNat % 2 ^ 18)) (z.toNat % 2 ^ 32)))

/-- 16 R311, R318, R319, R321, R322, R324: a signal whose object is aligned, outside the core's tagged windows and translated is withheld with
its physical address; an unaligned or tagged one traps; nothing is sent for an amount or a mask of 0. An event goes to the cores that its
scope names, which on a paired launch is for one core its pair. -/
def Obligations.SignalIssue : Prop := ∀ (s : State) (s1 s2 : BitVec 6) (a n : Word), s.rdS 57 s1.toNat = .ok a → s.rdS 58 s2.toNat = .ok n →
  let k := s.me
  let sends (q : ReqK) (pa : Nat) : State := s.setMe { k with sbuf := k.sbuf ++ [.req { s.newReq q a pa 0 0 with tag := 0, zero := false }] }
  let at_ (m : Nat) (P : Nat → Prop) : Prop := a.toNat % m = 0 → inWindow (s.windowsOf k) a.toNat = none →
    ∀ pa, s.xlate (engOf s.cur) a.toNat 0 .write = .ok pa → P pa
  at_ 8 (fun pa => (n.toNat < 2 ^ 48 → exec (.cntx s1 s2) s = .next (sends (.cpost n.toNat) pa)) ∧
    exec (.cnta s1 s2) s = .next (sends (.carrive n 0) pa)) ∧
  at_ 64 (fun pa =>
    (n.toNat % 2 ^ 32 ≠ 0 → exec (.jraise s1 s2) s = .next (sends (.jraise (n.toNat % 2 ^ 32) (decide (a.toNat ∈ k.posted))) pa)) ∧
    exec (.jflag s1 s2) s = .next (sends (.jflag (n.setWidth 6)) pa) ∧
    ∃ t, exec (.jdone s1) s = .next t ∧ t.me.sbuf = (sends .jdone pa).me.sbuf ∧ t.me.posted = (k.posted ++ [a.toNat]).drop (k.posted.length - 7) ∧
      SameMemory s t ∧ SameRegs k t.me) ∧
  (a.toNat % 64 = 0 → inWindow (s.windowsOf k) a.toNat = none → n.toNat % 2 ^ 32 = 0 → exec (.jraise s1 s2) s = .next s) ∧
  (a.toNat % 8 ≠ 0 → exec (.cnta s1 s2) s = .next (takeTrap s ⟨.illop, 0x700, a⟩ none)) ∧
  (a.toNat % 8 = 0 → inWindow (s.windowsOf k) a.toNat ≠ none → exec (.cnta s1 s2) s = .next (takeTrap s ⟨.illop, 0x804, a⟩ none)) ∧
  (a.toNat % 8 = 0 → inWindow (s.windowsOf k) a.toNat = none → 2 ^ 48 ≤ n.toNat → exec (.cntx s1 s2) s = .next (takeTrap s ⟨.illop, 0x805, 0⟩ none)) ∧
  (∀ rid l, isNmv s.cur = false → k.rid = some rid → look s.launches rid = some l →
    (n.toNat % 65536 ≠ 0 → exec (.evsig s1 s2 .launch) s = .next (s.setMe { k with sbuf := k.sbuf ++
      [.req (s.newReq (.event l.cores (n.setWidth 16)) 0 0 0 0)] })) ∧
    (n.toNat % 65536 ≠ 0 → coreAt (a.toNat % 32) (a.toNat / 2 ^ 16 % 64) ∈ l.cores → k.paired = false → exec (.evsig s1 s2 .core) s =
      .next (s.setMe { k with sbuf := k.sbuf ++
        [.req (s.newReq (.event [coreAt (a.toNat % 32) (a.toNat / 2 ^ 16 % 64)] (n.setWidth 16)) 0 0 0 0)] })) ∧
    (coreAt (a.toNat % 32) (a.toNat / 2 ^ 16 % 64) ∉ l.cores → exec (.evsig s1 s2 .core) s = .next (takeTrap s ⟨.illop, 0x800, 0⟩ none)) ∧
    (n.toNat % 65536 = 0 → exec (.evsig s1 s2 .launch) s = .next s)) ∧
  (let signals (i : Instr) (m : Nat) : Prop :=
     (a.toNat % m ≠ 0 → exec i s = .next (takeTrap s ⟨.illop, 0x700, a⟩ none)) ∧
     (a.toNat % m = 0 → inWindow (s.windowsOf k) a.toNat ≠ none → exec i s = .next (takeTrap s ⟨.illop, 0x804, a⟩ none))
   signals (.cntx s1 s2) 8 ∧ signals (.jraise s1 s2) 64 ∧ signals (.jdone s1) 64 ∧ signals (.jflag s1 s2) 64) ∧
  (isNmv s.cur = true → ∀ sc, exec (.evsig s1 s2 sc) s = .next (takeTrap s ⟨.illop, 0x706, 0⟩ none)) ∧
  (∀ rid l, isNmv s.cur = false → k.rid = some rid → look s.launches rid = some l →
    let px := a.toNat % 32
    let py := a.toNat / 2 ^ 16 % 64
    let sent (sc : Scope) (cs : List Nat) : Prop := exec (.evsig s1 s2 sc) s = if n.toNat % 65536 = 0 then .next s else
      .next (s.setMe { k with sbuf := k.sbuf ++ [.req (s.newReq (.event cs (n.setWidth 16)) 0 0 0 0)] })
    (coreAt px py ∈ l.cores →
      sent .core [if k.paired then coreAt (px / 2 * 2) py else coreAt px py] ∧
      sent .cluster (l.cores.filter (fun c => decide (coreCluster c = coreCluster (coreAt px py)))) ∧
      sent .die (l.cores.filter (fun c => decide (coreDie c = coreDie (coreAt px py)))) ∧
      ∀ lw lh, (2 ^ lw.toNat ≤ l.recd.width → 2 ^ lh.toNat ≤ l.recd.height → sent (.sub lw lh)
          (l.cores.filter (fun c => decide (c % 32 / 2 ^ lw.toNat = px / 2 ^ lw.toNat ∧ c / 32 / 2 ^ lh.toNat = py / 2 ^ lh.toNat)))) ∧
        (l.recd.width < 2 ^ lw.toNat ∨ l.recd.height < 2 ^ lh.toNat → exec (.evsig s1 s2 (.sub lw lh)) s = .next (takeTrap s ⟨.illop, 0x704, 0⟩ none))) ∧
    (coreAt px py ∉ l.cores → ∀ sc, sc ≠ .launch → exec (.evsig s1 s2 sc) s = .next (takeTrap s ⟨.illop, 0x800, 0⟩ none)))

/-- 03 R46, 07 R138, 13 R264 to R266, R268, R271, R273, 25 R444: reads, stores and atomics at their coherence points, of cores and of the
outside: the bytes read and written, the bytes that stay, the value that comes back, and the end of the core's stall; a fault found at a
store's home is kept for its core, and a write that brings a counter to hold releases the WAITC that sleeps on it (16 R313). That a held guest
line may answer a read by a free choice is the model's (log 9), and so are the host's physical addresses and the field `answer` (log 14). -/
def Obligations.MemorySteps : Prop := ∀ (s : State),
  (∀ (id : Nat) (r : Req), look s.reqs id = some r → s.tagDead r.owner = false →
    let k := s.core r.core
    let running : Prop := s.ctxAt r.core r.rid = .running
    let clean (pa n : Nat) : Prop := ∀ u ∈ touchedUnits pa n, s.cellPoisoned 0 (128 * u) 1 r.zero = false
    let cores (t : State) : Prop := OnlyWaits s t ∧ (r.tag ≠ 0 → t.cores = s.cores)
    let frame (t : State) (n : Nat) : Prop := (∀ a, a < r.pa ∨ r.pa + n ≤ a → t.mem.get a = s.mem.get a) ∧ cores t ∧
      t.clusters = s.clusters
    let free (n : Nat) : Prop := s.paHeld r.pa n r.tag r.zero true = false ∧ s.olderStore id { r with size := n } = false ∧
      (r.tag = 0 → NoSavedWaits s)
    (∀ sgn pa p, r.k = .load sgn → running → k.pendAt r.pend = some p →
      s.xlate (engOf r.core) r.va.toNat r.tag .read = .ok pa → region pa = .ordinary ∨ region pa = .view →
      s.paHeld pa r.size r.tag r.zero = false →
      s.olderLoad id r pa = false → s.ownStores r = [] →
      let line := s.readPa id r.tag (128 * (pa / 128)) 128 r.zero
      let ps := if s.guestable r.core r.tag pa then
          (((((look (s.die (coreDie r.core)).guest (guestKey r.tag (pa / 128))).filter (fun _ => Config.heldLineAnswers id)).getD line).drop
            (pa % 128)).take r.size)
        else s.readPa id r.tag pa r.size r.zero
      (∀ x ∈ ps, x.2 = false) → ∃ t, exec (.globalReadRequest (.core id)) s = .next t ∧ .loadDataReturn id ∈ t.inflight ∧ SameMemory s t ∧
        look t.reqs id = some { r with data := bytesVec (ps.map Prod.fst), pa := pa, done := true }) ∧
    (∀ p, running → k.pendAt r.pend = some p → region r.pa ≠ .hxd → ∃ t, exec (.loadDataReturn id) s = .next t ∧ look t.reqs id = none ∧
      t.mem = s.mem ∧ t.clusters = s.clusters ∧ (k.mon = none → SameMemory s t) ∧ SameRegs k (t.core r.core) ∧
      (k.op = some (.atomic id) → (t.core r.core).op = none) ∧
      ∃ v, (t.core r.core).pendAt r.pend = some { p with val := v, st := .ready } ∧ (r.size = 128 → v = r.data) ∧
        (∀ sgn, r.k = .load sgn → r.size ≠ 128 → let x := leNat (toBytes r.size r.data.toNat)
          v = (if sgn then BitVec.ofInt 64 (sx x (8 * r.size)) else BitVec.ofNat 64 x).setWidth 1024)) ∧
    (∀ strong, r.k = .store strong → free r.size →
      let bs := toBytes r.size r.data.toNat
      (region r.pa = .ordinary → r.tag = 0 → ∃ t, exec (.globalWriteRequest (.core id)) s = .next t ∧ t.mem.bytes r.pa r.size = bs ∧
        frame t r.size ∧ (if strong then .storeAck id ∈ t.inflight else look t.reqs id = none) ∧
        ∀ c a p fd, (s.core c).phase = .sleep (.ctr a (some p) fd) → p % 8 = 0 → r.pa < p + 16 → p < r.pa + r.size →
          (s.counter p).holds = false → (t.counter p).holds = true → (t.core c).waitCame = true) ∧
      (∀ c, region r.pa = .ordinary → r.tag ≠ 0 → s.cell r.tag r.pa = some c →
        ∃ t, exec (.globalWriteRequest (.core id)) s = .next t ∧ t.mem = s.mem ∧ frame t 0 ∧
          t.cell r.tag r.pa = some (c.take (r.pa % 1024) ++ bs ++ c.drop (r.pa % 1024 + r.size))) ∧
      (∀ u, region r.pa = .ordinary → s.matPoison r.tag r.pa r.zero = none → s.write r.owner r.tag r.pa r.zero bs = .ok u →
        ∃ t, exec (.globalWriteRequest (.core id)) s = .next t ∧ t.mem = u.mem ∧ (∀ g q, t.cell g q = u.cell g q) ∧ cores t ∧
          (if strong then .storeAck id ∈ t.inflight else look t.reqs id = none)) ∧
      (∀ d, region r.pa = .ordinary → s.matPoison r.tag r.pa r.zero = none → s.write r.owner r.tag r.pa r.zero bs = .error d →
        ∃ t, exec (.globalWriteRequest (.core id)) s = .next t ∧ t.mem = s.mem ∧
          (strong = false → .weakStoreFault r.core id ∈ t.inflight ∧ look t.reqs id = some { r with done := false, pa := d.toNat }) ∧
          (strong = true → running → look t.reqs id = none ∧ t.core r.core = { k with
            op := none, causes := k.causes ++ [.opFault ⟨.cellfull, d, r.va⟩ r] }))) ∧
    (∀ kd w64 sgn v c, r.k = .atomic kd w64 sgn v c → region r.pa = .ordinary → r.tag = 0 →
      let n := if w64 then 8 else 4
      let m := 2 ^ (8 * n)
      let old := s.mem.nat r.pa n
      let x := v.toNat % m
      free n → clean r.pa n → ∃ t, exec (.atomicPerform id) s = .next t ∧ frame t n ∧ .loadDataReturn id ∈ t.inflight ∧
        look t.reqs id = some { r with data := BitVec.ofNat 1024 old, size := n } ∧
        t.mem.nat r.pa n = match kd with
          | .add => (old + v.toNat) % m
          | .swp => x
          | .cas => if old = c.toNat % m then x else old
          | .min => if (if sgn then decide (sx x (8 * n) < sx old (8 * n)) else decide (x < old)) then x else old
          | .max => if (if sgn then decide (sx old (8 * n) < sx x (8 * n)) else decide (old < x)) then x else old) ∧
    (r.core ≠ 4096 → running → k.op = some (.strong id) → region r.pa ≠ .hxd → ∃ t, exec (.storeAck id) s = .next t ∧
      look t.reqs id = none ∧ t.core r.core = { k with op := none } ∧ t.mem = s.mem) ∧
    (r.core = 4096 → region r.pa ≠ .hxd → ∃ t, exec (.storeAck id) s = .next t ∧ look t.reqs id = none ∧ t.answer = some [] ∧
      t.cores = s.cores ∧ t.mem = s.mem) ∧
    (∀ (c : Nat) (tr : TrapInfo), ((∃ b, r.k = .store b) ∧ tr = ⟨.cellfull, BitVec.ofNat 32 r.pa, r.va⟩) ∨
        ((∃ n, r.k = .gacc n) ∧ tr = ⟨.illop, BitVec.ofNat 32 r.pa, r.va⟩) →
      let told (q : Core) : Core := { q with causes := q.causes ++ [.weak tr { r with pa := 0 }] }
      ∃ t, exec (.weakStoreFault c id) s = .next t ∧ look t.reqs id = none ∧ t.mem = s.mem ∧
        (s.ctxAt c r.rid = .running → t.core c = told (s.core c)) ∧
        (∀ n x, s.ctxAt c r.rid = .saved n → look s.saved n = some x → look t.saved n = some { x with k := told x.k }))) ∧
  (∀ (who : Outsider) (a pa n : Nat) (bs : List Byte), s.hostUp = true → 0 < n → a % 1024 + n ≤ 1024 → region pa = .ordinary →
    s.paHeld pa = false →
    let leads (write : Bool) : Prop := match who with
      | .connector => False
      | .host => pa = a
      | .device port => s.mgmt.endpoint = false ∧ port ∉ s.mgmt.pcieDown ∧ canonical a = true ∧ s.iommuWalk a ≠ .held ∧
        ∃ l, s.iommuLeaf a = some l ∧ (if write then l.w else l.r) = true ∧ pa = l.pa + (a - l.va)
    (leads false → let u := s.outsideWalks who false a n
      ∃ t ps, exec (.globalReadRequest (.outside who a n)) s = .next t ∧ t.answer = some ps ∧ ps.map Prod.fst = u.mem.bytes pa n ∧
        SameMemory u t ∧ t.cores = s.cores) ∧
    (leads true → bs.length = n → NoSavedWaits s → let u := s.outsideWalks who true a n
      ∃ t, exec (.globalWriteRequest (.outside who a bs)) s = .next t ∧ t.mem.bytes pa n = bs ∧
        (∀ x, x < pa ∨ pa + n ≤ x → t.mem.get x = u.mem.get x) ∧ OnlyWaits s t ∧ .storeAck s.nextId ∈ t.inflight) ∧
    (∀ w, who = .host → s.outsideWalks who w a n = s))

/-- 11 R244, R246, R247, R249, 25 R440: a recall takes a line from its die; an answer of the IOMMU is what the engine then translates with,
and waits while a table lies in a stack that is shut; an invalidation brings new contents of the tables, leaves no entry that overlaps its
range, and completes once no access translated there is under way; the reply to a page request lets its core go on, its page translated
anew, or gives the access PAGEF with RESPFAIL. The leaf that answers has its A bit set, and its D bit where it grants a write. That an
invalidation and a page reply bring new contents of the tables, and the list of leaves beside the walked ones, are the model's (log 12), as are
all caches in one step (log 49), a recall that moves no bytes (log 50), and a cache that keeps more for steps of many pages (log 116). -/
def Obligations.TranslationSteps : Prop := ∀ (s : State) (va size : Nat),
  (∀ line die, ∃ t, exec (.lineRecall line die) s = .next t ∧ SameMemory s t ∧ t.cores = s.cores ∧
    ∀ x, x ∈ (t.die die).dirty ↔ x ∈ (s.die die).dirty ∧ x ≠ line) ∧
  (∀ e, s.iommuWalk va = .held → ∃ t, exec (.atsTranslationReply e va) s = .next t ∧ .atsTranslationReply e va ∈ t.inflight ∧
    t.xcache = s.xcache ∧ SameMemory s t) ∧
  (∀ e, s.iommuWalk va ≠ .held → ∃ t, exec (.atsTranslationReply e va) s = .next t ∧ t.mem = (s.walked va true).mem ∧ t.cores = s.cores ∧
    (∀ n, n ≠ engKey e → look t.xcache n = look s.xcache n) ∧ (canonical va = true →
      (s.iommuLeaf va = none → ∀ tag a, t.xlate e va tag a = .fault .notpresent) ∧
      (∀ l tag a, s.iommuLeaf va = some l → (if a = .read then l.r else l.w) = true →
        t.xlate e va tag a = match leadsTo (l.pa + (va - l.va)) tag a with
          | none => .ok (l.pa + (va - l.va))
          | some r => .fault r))) ∧
  (∀ p l write, (s.iommuPath va).1.getLast? = some p → s.iommuWalk va = .leaf l →
    (s.walked va write).mem.nat p 8 = entryUsed (s.mem.nat p 8) (write && l.w) ∧
    ∀ x, x < p ∨ p + 8 ≤ x → (s.walked va write).mem.get x = s.mem.get x) ∧
  (∀ write, (s.iommuPath va).1 = [] ∨ (∀ l, s.iommuWalk va ≠ .leaf l) → (s.walked va write).mem = s.mem) ∧
  (∀ news, ∃ t, exec (.atsInvalidationRequest ⟨va, size⟩ news) s = .next t ∧ t.mem = s.mem ∧
    (∀ n x, x ∈ (look t.xcache n).getD [] ↔ x ∈ (look s.xcache n).getD [] ∧ ¬ (match x.leaf with
      | some l => l.va < va + size ∧ va < l.va + l.size
      | none => va ≤ x.va ∧ x.va < va + size)) ∧
    (∀ c (a : Word) pa fd, (s.core c).phase = .sleep (.ctr a (some pa) fd) → va ≤ a.toNat → a.toNat < va + size →
      (t.core c).phase = .sleep (.ctr a none fd)) ∧
    (news = none → t.iommu = s.iommu ∧ t.roots = s.roots) ∧
    (∀ ls root, news = some ⟨ls, root⟩ →
      (∀ l, l ∈ t.iommu ↔ l ∈ ls ∨ (l ∈ s.iommu ∧ ¬ (l.va < va + size ∧ va < l.va + l.size))) ∧
      (∀ p b, root = some (p, b) → look t.roots p = some b) ∧ (root = none → t.roots = s.roots)) ∧
    (if s.xlatedIn va size then .atsInvalidationRequest ⟨va, size⟩ none ∈ t.inflight ∧ t.invalidated = s.invalidated
     else t.invalidated = s.invalidated + 1)) ∧
  (∀ id r w e, look s.reqs id = some r → r.k = .page w e .core → s.tagDead r.owner = false → r.gen = (s.tag r.owner).gen →
    s.ctxAt r.core r.rid = .running →
    (∀ news, ∃ t, exec (.pageRequestResponse id (.success news)) s = .next t ∧ look t.reqs id = none ∧ t.mem = s.mem ∧ t.iommu = news ++ s.iommu ∧
      (∀ x, x ∈ (t.core r.core).await ↔ x ∈ (s.core r.core).await ∧ x ≠ id) ∧
      (canonical r.va.toNat = true → ∀ tag a, t.xlate e r.va.toNat tag a = .miss)) ∧
    (∀ q x, (s.core r.core).mon = none → (s.core r.core).op = some (.access q x) →
      ∃ t, exec (.pageRequestResponse id .failure) s = .next t ∧ look t.reqs id = none ∧ t.mem = s.mem ∧ (t.core r.core).op = none ∧
        (t.core r.core).causes = (s.core r.core).causes ++ [.opFault ⟨.pagef, 7, r.va⟩ q]))

/-- 16 R311 to R318, R322, R323, R331, R333: a signal performed at its object, after the core's older ones there: what it makes of the counter,
the job control block or the event bits, and the bytes that stay. A counter that comes to hold releases every wait for it. -/
def Obligations.SignalSteps : Prop := ∀ (s : State) (id : Nat) (r : Req), look s.reqs id = some r → s.tagDead r.owner = false →
  s.olderSignal id r = false →
  let frame (t : State) (a n : Nat) : Prop := (∀ x, x < a ∨ a + n ≤ x → t.mem.get x = s.mem.get x) ∧ t.cores = s.cores ∧
    t.clusters = s.clusters
  let here (n : Nat) : Prop := s.paHeld r.pa = false ∧ region r.pa = .ordinary ∧ s.cellPoisoned 0 r.pa n false = false
  let c := s.counter r.pa
  let expect := s.mem.nat r.pa 8
  let count := s.mem.nat (r.pa + 8) 8
  let late (i : Instr) : Prop := ∃ t, exec i s = .next t ∧ frame t 0 0 ∧ t.hxd.laneN.waiting.length = s.hxd.laneN.waiting.length + 1
  let counts (t : State) : Prop := look t.reqs id = none ∧ (∀ x, x < r.pa ∨ r.pa + 16 ≤ x → t.mem.get x = s.mem.get x) ∧
    t.clusters = s.clusters ∧ (∀ q, SameRegs (s.core q) (t.core q)) ∧
    let d := t.counter r.pa
    let holds (x : Counter) : Prop := x.posted = true ∧ (x.target : Int) ≤ x.count.toInt
    (holds d → ¬ holds c → ∀ q va fd, (s.core q).phase = .sleep (.ctr va (some r.pa) fd) → (t.core q).waitCame = true) ∧
    (¬ holds d ∨ holds c → t.cores = s.cores)
  (here 16 → s.saved = [] →
    (∀ n, r.k = .cpost n → n < 2 ^ 48 → ∃ t, exec (.counterPost id) s = .next t ∧ counts t ∧
      t.counter r.pa = ⟨c.count, true, c.past || decide ((n : Int) < c.count.toInt), n⟩) ∧
    (∀ n src, r.k = .carrive n src → ∃ t, exec (.counterArrive id) s = .next t ∧ counts t ∧
      t.counter r.pa = ⟨c.count + n, c.posted, c.past || (c.posted && decide ((c.target : Int) < (c.count + n).toInt)), c.target⟩ ∧
      (src < 8 → c.past = false → (t.counter r.pa).past = true →
        ∃ d, .overarrNotice r.core d ∈ t.inflight ∧ d % 2 ^ 32 = r.va.toNat % 2 ^ 32 / 8 * 8 + src))) ∧
  (here 64 →
    (r.k = .jdone → s.jcbState r.pa = .open_ → ∃ t, exec (.jcbCompletion id) s = .next t ∧ look t.reqs id = none ∧ frame t r.pa 64 ∧
      t.mem.nat (r.pa + 8) 8 = (count + 1) % 2 ^ 64 ∧ t.mem.nat r.pa 8 = expect ∧
      t.jcbState r.pa = (if count + 1 < expect then .open_ else if count + 1 = expect then .done else .failed)) ∧
    (r.k = .jdone → s.jcbState r.pa ≠ .open_ → late (.jcbCompletion id)) ∧
    (∀ n, r.k = .jraise n false → s.jcbState r.pa = .open_ → ∃ t, exec (.jcbRaise id) s = .next t ∧ look t.reqs id = none ∧ frame t r.pa 8 ∧
      t.mem.nat r.pa 8 = (expect + n) % 2 ^ 64) ∧
    (∀ n, r.k = .jraise n true → s.jcbState r.pa = .open_ → ∃ t, exec (.jcbRaise id) s = .next t ∧ frame t (r.pa + 0x14) 4 ∧
      t.jcbState r.pa = .failed) ∧
    (∀ n b, r.k = .jraise n b → s.jcbState r.pa ≠ .open_ → late (.jcbRaise id)) ∧
    (∀ f : BitVec 6, r.k = .jflag f → ∃ t, exec (.jcbFlag id) s = .next t ∧ look t.reqs id = none ∧ frame t (r.pa + 0x10) 4 ∧
      t.mem.nat (r.pa + 0x10) 4 = s.mem.nat (r.pa + 0x10) 4 ||| f.toNat)) ∧
  (∀ q ts m, r.k = .event ts m → r.left = true → q ∈ ts → (s.die (coreDie q)).st = .live → s.ctxAt q r.rid = .running →
    s.olderEvent q id r = false → (∀ e ∈ s.reqs, e.1 ≠ id → ∀ us w, e.2.k = .event us w → q ∉ us ∨ w ≠ m) →
    let k := s.core q
    ∃ t, exec (.eventArrival q m.toNat) s = .next t ∧ t.mem = s.mem ∧ t.core q = { k with
      ev := k.ev ||| m
      causes := if m &&& k.mask &&& ~~~k.waitMask = 0 then k.causes
        else k.causes ++ [.intr (0x0001_0000 + (m &&& k.mask).setWidth 32)] }) ∧
  (∀ q n (d : BitVec 32), s.ctxAt q (some n) = .running →
    let told (i : Instr) (p : PCause) : Prop := ∃ t, exec i s = .next t ∧ t.mem = s.mem ∧
      t.core q = { s.core q with causes := (s.core q).causes ++ [p] }
    told (.overarrNotice q (d.toNat + 2 ^ 32 * (n + 1))) (.overarr d) ∧ told (.nfNotice q (.own (d.toNat + 2 ^ 32 * (n + 1)))) (.nf d))

/-- 06 R103, 07 R144, R147, R149, R150, 08 R160, R162, 11 R240, R242, 13 R275, R276, 15 R300, 20 R380, R382: the steps that end a core's stalls,
waits and drains: what each asks of its core, and what the core is afterwards. The unit of a code-buffer fill is the model's (log 21). -/
def Obligations.CoreStalls : Prop := ∀ (s : State) (c : Nat),
  let k := s.core c
  let goes (i : Instr) (q : Core) : Prop := ∃ t, exec i s = .next t ∧ t.core c = q ∧ SameMemory s t
  let drained : Prop := k.pend = [] ∧ k.bpend = [] ∧ k.mx = [] ∧ k.release = 0
  let told : Prop := k.release = 0 ∧ ∀ t r, .weak t r ∉ k.causes
  let none_ (p : ReqK → Bool) : Prop := ∀ e ∈ s.reqs, e.2.core = c → e.2.rid = k.rid → p e.2.k = false
  (∀ line, line ∉ k.cbuf → goes (.codeBufferFill c line)
    { k with cbuf := (k.cbuf ++ [line]).drop (k.cbuf.length + 1 - Config.codeLines) }) ∧
  (k.mon = none → k.await = [] → k.out = .no → k.mismatched = false →
    (∀ v, k.phase = .sleep (.tc v) → v.toNat ≤ s.tc → k.stitchBit = false → k.after = false → goes (.waittWake c) { k with phase := .run }) ∧
    (∀ sc, k.op = some (.phase sc) → told → none_ ReqK.isLs → none_ ReqK.isAcc → goes (.phaseComplete c) { k with op := none } ∧
      ∃ t, exec (.phaseComplete c) s = .next t ∧ (isNmv c = false → (t.die (coreDie c)).guest = [])) ∧
    (∀ a b, k.op = some (.fence a b) → s.classDone c a = true → s.classDone c b = true → a ≠ .mxop → b ≠ .mxop →
      goes (.fenceComplete c) { k with op := none }) ∧
    (drained → k.op = none →
      (k.phase = .drain (.stitch none) → k.cancelTc = none → s.hxd.pkgFailed = false → k.exiting = true → ∃ t, exec (.stitchPoint c) s = .next t ∧
        SameMemory s t ∧ SameRegs k (t.core c) ∧ (t.core c).phase = .drain .exit ∧ (t.core c).exiting = false) ∧
      (k.phase = .drain (.stitch none) → k.cancelTc = none → s.hxd.pkgFailed = false → k.exiting = false →
        ∃ t, exec (.stitchPoint c) s = .next t ∧ SameMemory s t ∧ SameRegs k (t.core c) ∧ let q := t.core c
        let h := q.shadow
        q.phase = .run ∧ q.rewound = false ∧ q.window = false ∧ h.s = k.s ∧ h.v = k.v ∧ h.p = k.p ∧ h.f = k.f ∧ h.dead = k.dead ∧
        h.loops = k.loops ∧ h.ras = k.ras ∧ h.flags = k.flags ∧ h.seed0 = k.seed0 ∧ h.seed1 = k.seed1 ∧ h.mask = k.mask ∧
        h.alloc = k.alloc ∧ h.pos = k.pos ∧ h.banks = [] ∧ h.spill = []) ∧
      (k.phase = .drain (.stitch none) → k.cancelTc ≠ none → ∃ t, exec (.stitchPoint c) s = .next t ∧ (t.core c).phase = .ended) ∧
      (∀ sd p q, k.phase = .drain (.stitch (some (.tagnew sd p q))) → ∃ t, exec (.stitchPoint c) s = .next t ∧ SameMemory s t ∧
        (t.core c).op = some (.answer s.nextId sd) ∧ .tagnewRequest s.nextId ∈ t.inflight ∧
        ∃ r, look t.reqs s.nextId = some r ∧ r.k = .tagnew p q ∧ r.core = c) ∧
      (∀ a, k.phase = .drain (.stitch (some (.lnch a))) → ∃ t, exec (.stitchPoint c) s = .next t ∧ SameMemory s t ∧
        (t.core c).op = some (.answer s.nextId 0) ∧ ∃ l, look t.launches s.nextRid = some l ∧ l.addr = a ∧ l.issuer = some c ∧
        l.die = coreDie c) ∧
      (∀ rid q l, k.phase = .drain .exit → k.cancelTc = none → k.causes = [] → k.share = none → k.rid = some rid → k.running = some q →
        look s.launches rid = some l → ∃ t, exec (.taskExitComplete c) s = .next t ∧ SameMemory s t ∧ (t.core c).phase = .table ∧
          (t.core c).running = none ∧ .pointFinish rid q ∈ t.inflight ∧ ∃ u, look t.launches rid = some u ∧ u.done = l.done ++ [q])) ∧
    (∀ mask mode before tc, k.op = some (.switch mask mode before tc) → s.slmodeBefore c tc = false → k.cancelTc = none →
      s.hxd.pkgFailed = false → k.exiting = false →
      let cl := s.cluster (coreCluster c)
      let named (n : Nat) : Prop := n < 32 ∧ mask.getLsbD n = true ∧ (cl.slice n).mode ≠ mode
      (∀ n, named n → s.sliceQuiet (coreCluster c) n before tc = true ∧ ((cl.slice n).mode = .fifo → (cl.slice n).fifo = [])) →
      ∃ t, exec (.sliceSwitchPoint c) s = .next t ∧ t.mem = s.mem ∧ (t.core c).phase = .run ∧ (t.core c).op = none ∧
        let u := t.cluster (coreCluster c)
        (∀ n, (named n → u.slice n = ⟨mode, []⟩) ∧ (¬ named n → u.slice n = cl.slice n)) ∧
        ∀ a, (named (a / 786432) → u.mem.get a = 0) ∧ (¬ named (a / 786432) → u.mem.get a = cl.mem.get a)) ∧
    (∀ rid l x e q, k.phase = .table → k.rid = some rid → look s.launches rid = some l → l.state = .placed → k.cancelTc = none →
      (s.die (coreDie c)).st = .live → s.hxd.pkgFailed = false → look s.codes k.code = some x → 191 ∉ k.badSpill →
      (∀ i, i < 4 → k.spill.nat (0x5FC0 + 16 * i + 15) 1 % 16 = 0) → (e, q) ∈ k.tasks → (∀ y ∈ k.tasks, y ≠ (e, q) → q < y.2) →
      ∃ t, exec (.taskStart c) s = .next t ∧ SameMemory s t ∧ let u := t.core c
        u.phase = .run ∧ u.running = some q ∧ u.task = BitVec.ofNat 4 e ∧ u.pos = x.entry ∧ u.ras = [] ∧ (∀ n, n < 8 → n ∈ u.stale) ∧
        u.loops = levelEnts l.recd.levels q ∧ look u.tasks e = none ∧ u.s = k.s ∧ u.v = k.v ∧ u.p = k.p ∧ u.f = k.f ∧ u.flags = k.flags ∧
        u.banks = k.banks))

/-- 12 R260, R261, 13 R278, R281, R283: requests of engines whose addresses are translated: the bytes that a copy, a sleeve fill and a gather
move, what else stays, and the promise broken by a fault or by its expiry. That a pattern's N1 of 0 counts as 1 is the model's choice
(log 114). -/
def Obligations.EngineSteps : Prop := ∀ (s : State) (id : Nat) (e : Eng), look s.engs id = some e → s.tagDead e.owner = false → e.page = none →
  let n := coreCluster e.core
  let cl := s.cluster n
  let done (t : State) : Prop := look t.engs id = none ∧ t.cores = s.cores
  let toScratch (t : State) (d len : Nat) (bs : List Byte) : Prop := (t.cluster n).mem.bytes d len = bs ∧ t.mem = s.mem ∧
    ∀ x, x < d ∨ d + len ≤ x → (t.cluster n).mem.get x = cl.mem.get x
  let breaks (t : State) (cd : Nat) : Prop := t.core e.core = { s.core e.core with causes := (s.core e.core).causes ++
    [.promise e.seqno (BitVec.ofNat 32 (2 ^ 24 * cd + 2 ^ 20 * e.eng + e.seqno % 4096))] } ∧ t.mem = s.mem
  let matched : Prop := s.unmatched e.core e.rid e.iss = false
  let from_ (src : Word) (len pa : Nat) : Prop := e.srcScr = false ∧ src.toNat % 1024 + len ≤ 1024 ∧ (e.srcAt src.toNat).1 = 0 ∧
    s.xlate (.copy n) src.toNat 0 .read = .ok pa ∧ region pa = .ordinary ∧ ∀ zero, s.paHeld pa len 0 zero = false
  (∀ len d, e.k = .copy 1 len 0 0 none → e.prog = 0 → 0 < len → matched → s.submitHeld id = false →
    (scratchForm e.dst = some d → InScratch cl d len →
      (∀ a, scratchForm e.src = some a → InScratch cl a len → a + len ≤ d ∨ d + len ≤ a →
        ∃ t, exec (.copyComplete id) s = .next t ∧ done t ∧ toScratch t d len (cl.mem.bytes a len)) ∧
      (∀ pa, from_ e.src len pa → ∃ t, exec (.copyComplete id) s = .next t ∧ done t ∧ toScratch t d len (s.mem.bytes pa len))) ∧
    (∀ a, scratchForm e.src = some a → InScratch cl a len → isScratchForm e.dst = false → e.dst.toNat % 1024 + len ≤ 1024 → e.dstTag = 0 →
      s.xlate (.copy n) e.dst.toNat 0 .write = .ok d → region d = .ordinary → s.paHeld d len 0 e.dstZero true = false → NoSavedWaits s →
      ∃ t, exec (.copyComplete id) s = .next t ∧ look t.engs id = none ∧ OnlyWaits s t ∧ t.clusters = s.clusters ∧ t.mem.bytes d len = cl.mem.bytes a len ∧
        ∀ x, x < d ∨ d + len ≤ x → t.mem.get x = s.mem.get x)) ∧
  (∀ m r rs need x pa, e.k = .fill m (r :: rs) need → s.ctxAt e.core e.rid = .running → look (s.core e.core).sleeves m.toNat = some x →
    let d := x.ring + r % x.slots * x.rstride
    matched → d < 2 ^ 25 → 0 < x.rowlen → InScratch cl d x.rowlen → from_ (x.src + BitVec.ofNat 64 r * x.sstride) x.rowlen pa →
    ∃ t, exec (.sleeveFillComplete id) s = .next t ∧ toScratch t d x.rowlen (s.mem.bytes pa x.rowlen) ∧
      look (t.core e.core).sleeves m.toNat = some { x with filled := if x.head ≤ r then addNew x.filled r else x.filled }) ∧
  (∀ spt count, e.k = .gather spt count →
    (∀ pa, let k := dieCell (coreDie e.core)
      matched → s.stackShut k = false → s.xlate (.rbd k) e.src.toNat (e.srcAt e.src.toNat).1 .read = .ok pa → region pa = .ordinary →
      ∃ t, exec (.gatherRequest id) s = .next t ∧ look t.engs id = some { e with stack := paStack pa } ∧ .gatherComplete id ∈ t.inflight ∧
        t.mem = s.mem ∧ t.cores = s.cores ∧ t.clusters = s.clusters) ∧
    (∀ ty d (f : Nat → Nat), scratchForm e.dst = some d → s.stackShut e.stack = false → (s.hxd.pat spt).en = true →
      (s.hxd.pat spt).wv = false → (s.hxd.pat spt).fmt = some ty → ty ∉ [.untyped, .t6, .mom8] → 0 < count → count ≤ 1048576 →
      let p := s.hxd.pat spt
      let b := ty.width / 8
      let n1 := Nat.max p.n1 1
      let src (j : Nat) : Word := e.src + BitVec.ofInt 64 ((((j % n1 : Nat) : Int) * p.s1 + ((j / n1 : Nat) : Int) * p.s2) * (b : Int))
      e.src.toNat % b = 0 → e.wins = [] → InScratch cl d (count * b) →
      (∀ j, j < count → s.xlate (.rbd e.stack) (src j).toNat 0 .read = .ok (f j) ∧ region (f j) = .ordinary ∧ s.paHeld (f j) = false ∧
        paStack (f j) = e.stack) →
      ∃ t, exec (.gatherComplete id) s = .next t ∧ done t ∧
        toScratch t d (count * b) ((List.range count).flatMap (fun j => s.mem.bytes (f j) b)))) ∧
  (s.ctxAt e.core e.rid = .running → isNmv e.core = false →
    (e.broken = false → e.promise ≤ s.tc → ∃ t, exec (.promiseExpiry id) s = .next t ∧ breaks t 0x10 ∧
      look t.engs id = some { e with broken := true }) ∧
    (∀ cd rows len a b c, e.k = .copy rows len a b c → cd ∈ [1, 2, 3, 4, 5, 6, 7, 0x11, 0x12, 0x13, 0x14, 0x15] →
      ∃ t, exec (.engineRequestFault id cd) s = .next t ∧ breaks t cd ∧ look t.engs id = none)) ∧
  (s.tc < e.promise → exec (.promiseExpiry id) s = .next s)

/-- 02 R37, R38, 05 R81 to R83, R86, R87, R101: the launch port, acceptance, the release of held submissions, cancellation and aging. The
placement pass that aging owes is the model's reading (log 95). -/
def Obligations.LaunchPort : Prop := ∀ (s : State) (die rid tok : Nat) (v : Word) (l : Launch),
  (die < 64 → s.mgmt.st = .running → (s.die die).st = .live → ∃ t u, exec (.lpSubmit die v) s = .next t ∧
    look t.launches s.nextRid = some u ∧ t.nextRid = s.nextRid + 1 ∧ u.addr.toNat % 2 ^ 57 = 64 * (v.toNat % 2 ^ 51) ∧
    canonical u.addr.toNat = true ∧ u.porttag = v.toNat / 2 ^ 52 ∧ u.die = die ∧ SameMemory s t ∧ t.cores = s.cores ∧
    (if 4096 ≤ s.pendingLaunches then u.state = .held else u.state = .accepting ∧ .launchAcceptance s.nextRid ∈ t.inflight)) ∧
  (die < 64 → s.mgmt.st = .running → (s.die die).st = .live → v.toNat % 2 ^ 32 ≠ 0 → ∃ t, exec (.lpCancel die v) s = .next t ∧
    .cancelPoint (v.toNat % 2 ^ 32) ∈ t.inflight ∧ t.launches = s.launches ∧ t.cores = s.cores) ∧
  (look s.launches rid = some l →
    (l.state = .accepting → s.hxd.pkgFailed = false → l.issuer = none →
      (∀ bs h bb, let r := parseRec bs
        let rd (a : Word) (n : Nat) := s.lcRead rid l l.die a n (.launchAcceptance rid)
        let bounds := (upFrom 0 (bb.length / 8)).map (fun i => (bnat bb (8 * i) 4, bnat bb (8 * i + 4) 4))
        rd l.addr 256 = .ok bs → rd r.image 256 = .ok h → h ≠ [] → hdrNest h = r.levels.length → r.levels ≠ [] →
        rd (r.image + BitVec.ofNat 64 (bnat h 0x2C 4)) (8 * hdrNest h) = .ok bb → r.nwin = 0 → r.donejcb = 0 → r.waitjcb = [] →
        s.recordFaults l r = [] → magicOk h = true → rectFaults r (attrPaired h) = [] → nestFaults r.levels (hdrNest h) bounds = [] →
        s.pendingLaunches < 4096 → ∃ t u, exec (.launchAcceptance rid) s = .next t ∧ look t.launches rid = some u ∧ u.state = .queued ∧
          u.recd = r ∧ u.prio = r.ctrl.toNat / 2 ^ 30 % 4 ∧ u.points = (r.levels.map Prod.fst).foldl (· * ·) 1 ∧
          (t.die l.die).seq = (s.die l.die).seq + 1 ∧ (if u.points = 0 then .launchComplete rid else .placementPass) ∈ t.inflight ∧
          SameMemory s t) ∧
      (∀ va, s.lcRead rid l l.die l.addr 256 (.launchAcceptance rid) = .bad va → l.jdone = none → ∃ t, exec (.launchAcceptance rid) s = .next t ∧
        look t.launches rid = none ∧ (∃ w, t.hxd.laneN.waiting = s.hxd.laneN.waiting ++ [w] ∧ w.w0.toNat % 256 = 0x0C ∧
          w.w1.toNat % 2 ^ 32 = va % 2 ^ 32 ∧ w.addr = l.addr) ∧ SameMemory s t)) ∧
    (l.state = .held → (∀ e ∈ s.launches, e.2.state = .held → e = (rid, l) ∨ l.order < e.2.order) →
      s.pendingLaunches + (s.launches.filter (fun e => decide (e.2.state = .accepting))).length < 4096 →
      ∃ t, exec .submissionRelease s = .next t ∧ look t.launches rid = some { l with state := .accepting } ∧
        .launchAcceptance rid ∈ t.inflight ∧ SameMemory s t) ∧
    (rises s.launches = true → tok ≠ 0 → l.recd.token.toNat = tok →
      (l.state = .placed → ∃ t u, exec (.cancelPoint tok) s = .next t ∧ look t.launches rid = some u ∧ u.state = .stopping false ∧
        .launchComplete rid ∈ t.inflight ∧ ∀ c ∈ l.cores, (s.core c).phase = .table → (t.core c).phase = .ended) ∧
      (l.state = .queued → ∃ t, exec (.cancelPoint tok) s = .next t ∧ look t.launches rid = none)) ∧
    (l.state = .queued → s.hxd.paAging ≠ 0 → l.prio < 3 → l.qtc + s.hxd.paAging.toNat ≤ s.tc → ∃ t, exec (.agingPromote rid) s = .next t ∧
      look t.launches rid = some { l with prio := l.prio + 1, qtc := s.tc, order := s.hxd.order } ∧ .placementPass ∈ t.inflight ∧
      SameMemory s t ∧ t.cores = s.cores)) ∧
  (∀ c x, (s.core c).cancelTc = some x → x + 65536 ≤ s.tc → (s.core c).phase ≠ .ended → ∃ t, exec (.cancelTimeout c) s = .next t ∧
    t.core c = { s.core c with stopNext := true } ∧ SameMemory s t) ∧
  (die < 64 → s.mgmt.st = .running → (s.die die).st = .live →
    (v.toNat % 64 ≠ 0 → ∃ t, exec (.lpMonimg die v) s = .next t ∧ (t.die die).monResult = 2 ∧ (t.die die).monitor = (s.die die).monitor) ∧
    (∀ h b, v.toNat % 64 = 0 → s.monRead die v 256 (.lpMonimg die v) = .ok h → 256 < hdrLen h → hdrLen h ≤ 4194304 →
      s.monRead die (v + 256) (hdrLen h - 256) (.lpMonimg die v) = .ok b → lowest (monitorFaults h (h ++ b)) = none →
      ∃ t x, exec (.lpMonimg die v) s = .next t ∧ (t.die die).monitor = some s.nextCode ∧ (t.die die).monResult = 0 ∧ (t.die die).monAddr = v ∧
        look t.codes s.nextCode = some x ∧ x.entry = bnat h 0x30 4 ∧ t.mem = s.mem ∧ t.cores = s.cores))

/-- 02 R34 to R37, 05 R88, R89, R93, R96 to R98, R101, 07 R151, 18 R350: placement, the start of a launch, with both cores of every pair of a
paired one, the hand-out of points, and the end of a launch, of a cancelled and of a failed one too. -/
def Obligations.LaunchRun : Prop := ∀ (s : State) (rid : Nat) (l : Launch), look s.launches rid = some l →
  (∀ p k, s.hxd.pkgFailed = false → s.queueOf 3 ++ s.queueOf 2 ++ s.queueOf 1 ++ s.queueOf 0 = [(rid, l)] → l.resume = false →
    s.spotFor l = some (p, k) → ∃ t u, exec .placementPass s = .next t ∧ look t.launches rid = some u ∧ u.state = .placing ∧ u.onMesh = true ∧
      (u.x0, u.y0) = p ∧ u.code = s.nextCode ∧ .launchStart rid ∈ t.inflight ∧ SameMemory s t ∧ t.cores = s.cores ∧
      (p ∈ l.positions ∧ s.freeAt l [] p = true)) ∧
  (∀ b, let h := l.header
    let r := l.recd
    l.state = .placing → l.resume = false → (s.die l.master).st = .live → (∀ d ∈ l.dies, (s.die d).st = .live) →
    l.x0 + r.width ≤ 32 → 256 < hdrLen h → hdrLen h ≤ 4194304 → r.arglen = 0 → r.image.toNat % 64 = 0 → s.sliceInitQuiet l = true →
    l.evict = none →
    s.lcRead rid l l.master (r.image + 256) (hdrLen h - 256) (.launchStart rid) = .ok b → imageFaults h (h ++ b) = [] →
    attrNmv h = false → argFaults h (h ++ b) [] 0 = [] → s.sliceFaults l = [] →
    ∃ t u, exec (.launchStart rid) s = .next t ∧ look t.launches rid = some u ∧ u.state = .placed ∧ t.mem = s.mem ∧
      ∀ i c, l.leads[i]? = some c → let k := t.core c
        let n := l.leads.length
        k.rid = some rid ∧ k.lidx = i ∧ k.ctag.toNat = r.tag.toNat % 4096 ∧ k.token = r.token ∧ k.phase = .table ∧ k.pos = bnat h 0x30 4 ∧
        k.flags = 0 ∧ k.ev = 0 ∧ k.mask = 0 ∧ k.s = [] ∧ k.v = [] ∧ k.p = [] ∧ k.f = [] ∧ k.banks = [] ∧ k.spill = [] ∧ k.dead = [] ∧
        k.tasks = [] ∧ k.defprof = bnat h 6 1 ∧ k.quota = bnat h 0x0E 1 ∧ k.paired = attrPaired h ∧ k.follow = false ∧
        (k.paired = true → ∃ f, look t.followers (partner c) = some f ∧ f.lag = [] ∧ f.k.follow = true ∧ SameRegs k f.k ∧ f.k.spill = k.spill ∧
          f.k.ctag = k.ctag ∧ f.k.token = k.token ∧ f.k.lidx = i) ∧
        (if r.dyn then k.todo = [] ∧ .dynRangeRequest c ∈ t.inflight
         else ∀ q, q ∈ k.todo ↔ i * l.points / n ≤ q ∧ q < (i + 1) * l.points / n)) ∧
  (∀ c, (s.core c).rid = some rid → l.state = .placed → (s.die (coreDie c)).st = .live → l.recd.dyn = true → l.ranges = [] →
    let n := Nat.min 64 (l.points - l.given)
    0 < n → ∃ t u, exec (.dynRangeRequest c) s = .next t ∧ look t.launches rid = some u ∧ u.given = l.given + n ∧ SameMemory s t ∧
      u.hand = l.hand ++ (upFrom l.given n).map (fun q => (q, (s.core c).lidx)) ∧
      t.core c = { s.core c with asked := false, todo := (s.core c).todo ++ upFrom l.given n }) ∧
  (∀ q, q ∈ l.done → ∃ t u, exec (.pointFinish rid q) s = .next t ∧ look t.launches rid = some u ∧ u.nfin = l.nfin + 1 ∧ q ∉ u.done ∧
    (∀ e ∈ u.hand, e.1 ≠ q) ∧ (l.nfin + 1 = l.points → .launchComplete rid ∈ t.inflight) ∧ SameMemory s t ∧ t.cores = s.cores) ∧
  (l.state = .placed → l.nfin = l.points → (∀ c ∈ l.leads, (s.core c).rid = some rid → (s.core c).finished = true) → s.quietLaunch rid = true →
    (l.jdone = none → ∃ t, exec (.launchComplete rid) s = .next t ∧ look t.launches rid = none ∧ t.mem = s.mem ∧
      ∀ c ∈ l.cores, (s.core c).rid = some rid → look s.followers c = none → (t.core c).rid = none ∧ (t.core c).phase = .idle ∧ (t.core c).s = (s.core c).s ∧
        (t.core c).v = (s.core c).v) ∧
    (∀ pa, l.jdone = some pa → s.paHeld pa = false →
      (s.cellPoisoned 0 pa 64 false = false → s.jcbState pa = .open_ → s.mem.nat (pa + 8) 8 + 1 < s.mem.nat pa 8 →
        ∃ t, exec (.launchComplete rid) s = .next t ∧ look t.launches rid = none ∧ t.mem.nat (pa + 8) 8 = s.mem.nat (pa + 8) 8 + 1 ∧
          ∀ a, a < pa ∨ pa + 64 ≤ a → t.mem.get a = s.mem.get a) ∧
      (s.cellPoisoned 0 pa 64 false = true → ∃ t, exec (.launchComplete rid) s = .next t ∧ look t.launches rid = none ∧ t.mem = s.mem))) ∧
  (∀ failed pa, l.state = .stopping failed → (∀ c ∈ l.leads, (s.core c).rid = some rid → (s.core c).phase = .ended) → l.jdone = some pa →
    s.paHeld pa = false → s.cellPoisoned 0 pa 64 false = false → s.jcbState pa = .open_ → (∀ e ∈ s.launches, e.2.state ≠ .waiting) →
    ∃ t, exec (.launchComplete rid) s = .next t ∧ look t.launches rid = none ∧ t.jcbState pa = if failed then .failed else .cancelled)

/-- 03 R50 to R53, R55, 16 R327 to R329, 22 R422, R423: the tag allocator: a grant is of the lowest FREE tag, a request that cannot be met waits
or is refused, and a tag returned or killed drains before it is FREE. That a request for a tag outside its context's own traps when the
allocator finds it so, and not at issue, is the model's reading (log 45); so is a tag freed while page requests of it remain (log 65). -/
def Obligations.TagSteps : Prop := ∀ (s : State),
  let turnedAway (t : State) (id : Nat) (r : Req) (d : BitVec 32) : Prop := look t.reqs id = none ∧ (∀ u, t.tag u = s.tag u) ∧
    SameMemory s t ∧ (s.ctxAt r.core r.rid = .running →
      t.core r.core = { s.core r.core with op := none, causes := (s.core r.core).causes ++ [.opFault ⟨.illop, d, 0⟩ r] })
  (∀ id r p q, look s.reqs id = some r → r.k = .tagnew p q → r.owner ≠ 0 → s.within p r.owner = false →
    ∃ t, exec (.tagnewRequest id) s = .next t ∧ turnedAway t id r 0x802) ∧
  (∀ id r p q, look s.reqs id = some r → r.k = .tagnew p q → r.owner = 0 ∨ s.within p r.owner = true →
    ((s.tag p).st ≠ .live ∨ (s.tag p).depth = 15 → ∃ t, exec (.tagnewRequest id) s = .next t ∧ .tagnewAnswer r.core 4095 ∈ t.inflight ∧
      ∀ u, t.tag u = s.tag u) ∧
    ((s.tag p).st = .live → (s.tag p).depth < 15 → s.hxd.tagWait = [] →
      (s.hxd.tgaLimit ≤ s.tagCount → ∃ t, exec (.tagnewRequest id) s = .next t ∧ t.hxd.tagWait = [id] ∧ ∀ u, t.tag u = s.tag u) ∧
      (∀ n, s.tagCount < s.hxd.tgaLimit → 1 ≤ n → n ≤ 4094 → (s.tag n).st = .free → (∀ u, 1 ≤ u → u < n → (s.tag u).st ≠ .free) →
        ∃ t, exec (.tagnewRequest id) s = .next t ∧ .tagnewAnswer r.core n ∈ t.inflight ∧
          t.tag n = ⟨.live, (s.tag p).depth + 1, p, q, (s.tag n).gen + 1⟩ ∧ ∀ u, u ≠ n → t.tag u = s.tag u))) ∧
  (∀ id r p q n sd, look s.reqs id = some r → r.k = .tagnew p q → r.data = BitVec.ofNat 1024 (n + 1) → s.ctxAt r.core r.rid = .running →
    (s.core r.core).op = some (.answer id sd) → (s.core r.core).cancelTc = none → (s.core r.core).exiting = false → s.hxd.pkgFailed = false →
    (∀ e ∈ s.reqs, e.1 ≠ id → e.2.core = r.core → e.2.data ≠ r.data) →
    ∃ t, exec (.tagnewAnswer r.core n) s = .next t ∧ (t.core r.core).phase = .run ∧ (t.core r.core).op = none ∧
      (sd ≠ 0 → (t.core r.core).sreg sd.toNat = BitVec.ofNat 64 n) ∧ SameMemory s t) ∧
  (∀ id r n, look s.reqs id = some r → r.k = .tagret n → s.tagDead r.owner = false → r.owner ≠ 0 → s.descends 16 n r.owner = false →
    ∃ t, exec (.tagretApply id) s = .next t ∧ turnedAway t id r 0x803) ∧
  (∀ id r n, look s.reqs id = some r → r.k = .tagret n → s.tagDead r.owner = false → n ≠ 0 → r.owner = 0 ∨ s.descends 16 n r.owner = true →
    ((s.tag n).st ≠ .live → ∃ t, exec (.tagretApply id) s = .next t ∧ (∀ u, t.tag u = s.tag u) ∧ SameMemory s t) ∧
    ((s.tag n).st = .live → s.liveBelow n = true → ∃ t, exec (.tagretApply id) s = .next t ∧ (t.tag n).st = .held) ∧
    ((s.tag n).st = .live → s.liveBelow n = false → ∃ t, exec (.tagretApply id) s = .next t ∧ (t.tag n).st = .draining ∧
      ∀ k, k < 32 → .tagDrain n k ∈ t.inflight)) ∧
  (∀ n st addr, n ≠ 0 → (s.tag n).st = .live ∨ (s.tag n).st = .held → ∃ t, exec (.tagKill n st addr) s = .next t ∧ (t.tag n).st = .draining ∧
    (∃ w ∈ t.hxd.laneH.waiting, w.w0.toNat % 256 = 0x41 ∧ w.w1.toNat % 2 ^ 32 = st % 2 ^ 32) ∧ (∀ k, k < 32 → .tagDrain n k ∈ t.inflight) ∧
    ∀ u e, u ≠ 0 → u ≠ 4095 → look s.hxd.tags u = some e → e.st = .live ∨ e.st = .held → s.descends 16 u n = true →
      (t.tag u).st = .draining) ∧
  (∀ n st addr, n = 0 ∨ (s.tag n).st = .free ∨ (s.tag n).st = .draining → exec (.tagKill n st addr) s = .next s) ∧
  (∀ n k, (s.tag n).st = .draining → k < 32 → s.stackShut k = false → ∃ t, exec (.tagDrain n k) s = .next t ∧ t.mem = s.mem ∧
    .tagFree n ∈ t.inflight ∧ (∀ g, g < 2 ^ 32 → look (t.stack k).cells (cellKey n g) = none) ∧
    (∀ u g, u ≠ n → g < 2 ^ 32 → look (t.stack k).cells (cellKey u g) = look (s.stack k).cells (cellKey u g)) ∧
    (∀ d x, look t.dies d = some x → ∀ e ∈ x.guest, e.1 / 2 ^ 49 ≠ n) ∧
    ∀ e ∈ (t.stack k).buckets, e.2.tag ≠ n) ∧
  (∀ n, (s.tag n).st = .draining →
    (∀ k, .tagDrain n k ∈ s.inflight → ∃ t, exec (.tagFree n) s = .next t ∧ t.tag n = s.tag n) ∧
    ((∀ k, .tagDrain n k ∉ s.inflight) → (∀ e ∈ s.reqs, e.2.owner = n → e.2.k.isPage = true) → (∀ e ∈ s.engs, e.2.owner ≠ n) → s.hxd.tagWait = [] →
      ∃ t, exec (.tagFree n) s = .next t ∧ t.tag n = ⟨.free, 0, 0, 0, (s.tag n).gen⟩ ∧ (∀ u, u ≠ n → t.tag u = s.tag u) ∧ SameMemory s t)) ∧
  (∀ id r n p, look s.reqs id = some r → r.k = .tagq n → s.tagDead r.owner = false → s.ctxAt r.core r.rid = .running →
    (s.core r.core).pendAt r.pend = some p → let e := s.tag n
    ∃ t, exec (.tagqAnswer id) s = .next t ∧ look t.reqs id = none ∧ SameMemory s t ∧ (t.core r.core).pendAt r.pend = some { p with
      st := .ready
      val := (BitVec.ofNat 64 (2 ^ 62 * (match e.st with | .free => 0 | .live => 1 | .held => 2 | .draining => 3) + 2 ^ 58 * (e.depth % 16) +
        2 ^ 46 * (e.parent % 4096) + 2 ^ 16 * (e.quota % 2 ^ 24) + e.gen.toNat)).setWidth 1024 }) ∧
  (∀ v : Word, let n := v.toNat % 4096
    (n = 0 ∨ n = 4095 → exec (.tgaLimitWrite v) s = .next s) ∧
    (n ≠ 0 → n ≠ 4095 → ∃ t, exec (.tgaLimitWrite v) s = .next t ∧ t.hxd.tgaLimit = n ∧ SameMemory s t))

/-- 16 R330, 22 R404 to R409, R411 to R416, R420, 25 R447, R448: declaring a bucket, accumulate-writes in SLOT, TREE and ARRIVAL order with the
replies to them and the non-finite event, shares, copy-outs and pushes. Which of several ports to a peer a push takes is free (log 27); that the
IOMMU's leaf places a peer's push is the model's reading (log 28). -/
def Obligations.BucketSteps : Prop := ∀ (s : State),
  (∀ id r sd ps pas, look s.reqs id = some r → r.k = .bkdef → s.ctxAt r.core r.rid = .running → s.tagDead r.owner = false → r.done = true →
    let c := s.core r.core
    let bs := s.descBytes r ps
    let b := parseBucket bs
    let w := s.resolve c b.base.toNat
    let first := b.base.toNat / 4096
    let n := (b.base.toNat + 4 * b.count - 1) / 4096 - first + 1
    let k := paStack (pas.headD 0)
    c.await = [] → c.op = some (.answer id sd) → c.cancelTc = none → c.exiting = false → s.hxd.pkgFailed = false →
    s.vaHeld (engOf r.core) r.tag r.va.toNat 64 r.zero = false → s.readVa (engOf r.core) id r.tag r.zero r.va.toNat 64 = .data ps →
    anyPoison ps = false → s.bucketFieldBad c bs = false → bnat bs 0x10 8 = 0 →
    s.xlateMany (engOf r.core) ((upFrom first n).map (fun p => (4096 * p, w.1))) = .ok pas → pas ≠ [] →
    (∀ p ∈ pas, region p = .ordinary ∧ paStack p = k) → s.stackShut k = false → (s.stack k).buckets = [] → b.nchunks * b.chunkBytes ≤ storeSize →
    ∃ t y, exec (.bkdefRequest id) s = .next t ∧ look (t.stack k).buckets 0 = some y ∧
      y = { b with ident := s.nextId, tag := w.1, zero := w.2, pages := pas.take n } ∧
      (t.core r.core).phase = .run ∧ (sd ≠ 0 → (t.core r.core).sreg sd.toNat = BitVec.ofNat 64 (2 ^ 27 * k)) ∧ t.mem = s.mem) ∧
  (∀ id r slot b y c, look s.reqs id = some r → r.k = .gacc slot → s.tagDead r.owner = false → region r.pa = .ordinary → s.paHeld r.pa = false →
    let k := paStack r.pa
    let ch := y.chunk c
    let finite := anyNonFinite (y.inputs c r.data) = false
    let at_ (i : Nat) : Nat := y.sumPa (y.wc * c + i)
    let stored (t : State) (x : Nat → Lane) : Prop := (∀ i, i < y.chunkLen c → t.mem.nat (at_ i) 4 = (x i).toNat) ∧
      ∀ a, (∀ i, i < y.chunkLen c → a < at_ i ∨ at_ i + 4 ≤ a) → t.mem.get a = s.mem.get a
    let sound : Prop := r.tag = 0 ∧ y.base.toNat % 128 = 0 ∧ (∀ i, i < y.count → s.cellPoisoned 0 (y.sumPa i) 4 y.zero = false) ∧
      ∀ i j, i < j → j < y.count → y.sumPa i + 4 ≤ y.sumPa j ∨ y.sumPa j + 4 ≤ y.sumPa i
    let event (t : State) : Prop := ∃ u, look t.reqs id = none ∧ look (t.stack k).buckets b = some u ∧ u.st = .nonfinite ∧
      u.flags.getLsbD 4 = true ∧ (∀ e ∈ u.chunks, e.2.staged = []) ∧
      ∀ n l, r.rid = some n → look s.launches n = some l → l.recd.token ≠ 0 → .cancelPoint l.recd.token.toNat ∈ t.inflight
    (s.stack k).buckets = [(b, y)] → y.tag = r.tag → y.offsetOf r.pa = some (4 * y.wc * c) →
    (slot < y.contrib → y.st = .failed ∨ y.st = .nonfinite → ∃ t, exec (.gaccArrival (.own id)) s = .next t ∧ look t.reqs id = none ∧
      (t.stack k).buckets = [(b, y)] ∧ SameMemory s t) ∧
    (slot < y.contrib → y.st = .open_ →
      (if y.order = .arrival then slot ∈ ch.bitmap else slot < ch.next ∨ ∃ z ∈ ch.staged, z.slot = slot) →
      ∃ t, exec (.gaccArrival (.own id)) s = .next t ∧ look t.reqs id = none ∧
        look (t.stack k).buckets b = some { y with dups := y.dups + 1 } ∧ SameMemory s t) ∧
    (slot < y.contrib → y.st = .open_ → (if y.order = .arrival then slot ∉ ch.bitmap else slot = ch.next) → ¬ finite → y.jcb = none →
      ∃ t, exec (.gaccArrival (.own id)) s = .next t ∧ event t ∧ SameMemory s t ∧ (s.ctxAt r.core r.rid = .running → t.core r.core =
        { s.core r.core with causes := (s.core r.core).causes ++ [.nf (BitVec.ofNat 32 (2 ^ 27 * k + b))] })) ∧
    (slot = ch.next → slot + 1 < y.contrib → y.st = .open_ → y.order = .tree → ch.staged = [] → ch.napplied + 1 < y.contrib → finite →
      (treePush 0 (y.inputs c r.data) ch.stack).2.2 = false → ∃ t u, exec (.gaccArrival (.own id)) s = .next t ∧ look t.reqs id = none ∧
        SameMemory s t ∧ look (t.stack k).buckets b = some u ∧ u.applied = y.applied + 1 ∧ u.st = .open_ ∧ (u.chunk c).next = slot + 1 ∧
        (u.chunk c).stack = (treePush 0 (y.inputs c r.data) ch.stack).1) ∧
    (slot = ch.next → slot + 1 = y.contrib → y.st = .open_ → y.order = .tree → ch.staged = [] → finite → sound →
      ∀ lv top rest, treePush 0 (y.inputs c r.data) ch.stack = ((lv, top) :: rest, (treePush 0 (y.inputs c r.data) ch.stack).2.1, false) →
        let acc := treeFold top rest
        let sum (i : Nat) : Lane := (addLane 0 (acc.1.getD i 0)).1
        acc.2.2 = false → acc.1.length = y.chunkLen c → (∀ i, i < y.chunkLen c → (dec .fp32 (sum i).toNat).nonFinite = false) →
        ∃ t, exec (.gaccArrival (.own id)) s = .next t ∧ look t.reqs id = none ∧ stored t sum) ∧
    (y.contrib ≤ slot → ∃ t, exec (.gaccArrival (.own id)) s = .next t ∧ .weakStoreFault r.core id ∈ t.inflight ∧
      look t.reqs id = some { r with done := false, pa := 0x902 } ∧ SameMemory s t) ∧
    (slot < y.contrib → y.st = .running ∨ y.st = .done → ∃ t, exec (.gaccArrival (.own id)) s = .next t ∧ look t.reqs id = none ∧
      look (t.stack k).buckets b = some { y with dups := y.dups + 1 } ∧ SameMemory s t) ∧
    (slot < y.contrib → y.st = .open_ → y.order ≠ .arrival → ch.next < slot → (∀ z ∈ ch.staged, z.slot ≠ slot) →
      ((s.stack k).stage < 64512 → finite → ∃ t z, exec (.gaccArrival (.own id)) s = .next t ∧ look t.reqs id = none ∧ SameMemory s t ∧
        (t.stack k).stage = (s.stack k).stage + 1 ∧ z.slot = slot ∧ z.data = r.data ∧
        look (t.stack k).buckets b = some { y with chunks := put y.chunks c { ch with staged := ch.staged ++ [z] } }) ∧
      (64512 ≤ (s.stack k).stage → ∃ t, exec (.gaccArrival (.own id)) s = .next t ∧ .gaccRetryResend id ∈ t.inflight ∧ SameMemory s t ∧
        look (t.stack k).buckets b = some { y with retries := y.retries + 1 })) ∧
    (slot < y.contrib → y.st = .open_ →
      (y.order = .arrival ∧ slot ∉ ch.bitmap) ∨ (y.order = .slot ∧ slot = ch.next ∧ ch.staged = []) → finite → sound →
      let sum (i : Nat) : Lane := (addLane (if ch.napplied = 0 then 0 else BitVec.ofNat 32 (s.mem.nat (at_ i) 4))
        ((y.inputs c r.data).getD i 0)).1
      let fits : Prop := ∀ i, i < y.chunkLen c → (dec .fp32 (sum i).toNat).nonFinite = false
      (fits → ch.napplied + 1 < y.contrib → ∃ t u, exec (.gaccArrival (.own id)) s = .next t ∧ look t.reqs id = none ∧ t.cores = s.cores ∧
        stored t sum ∧ look (t.stack k).buckets b = some u ∧ u.applied = y.applied + 1 ∧ u.st = .open_ ∧
        (if y.order = .arrival then slot ∈ (u.chunk c).bitmap else (u.chunk c).next = slot + 1)) ∧
      (¬ fits → y.jcb = none → ∃ t, exec (.gaccArrival (.own id)) s = .next t ∧ event t ∧ stored t sum ∧ t.cores = s.cores ∧
        ∀ n, r.rid = some n → .nfNotice r.core (.own (2 ^ 27 * k + b + 2 ^ 32 * (n + 1))) ∈ t.inflight)) ∧
    (∀ z, ch.staged = [z] → z.slot = slot + 1 → slot = ch.next → slot + 1 < y.contrib → y.st = .open_ → y.order = .slot → finite → sound →
      let first (i : Nat) : Lane := (addLane (if ch.napplied = 0 then 0 else BitVec.ofNat 32 (s.mem.nat (at_ i) 4))
        ((y.inputs c r.data).getD i 0)).1
      let sum (i : Nat) : Lane := (addLane (first i) ((y.inputs c z.data).getD i 0)).1
      (∀ i, i < y.chunkLen c → (dec .fp32 (first i).toNat).nonFinite = false ∧ (dec .fp32 (sum i).toNat).nonFinite = false) →
      ∃ t, exec (.gaccArrival (.own id)) s = .next t ∧ look t.reqs id = none ∧ stored t sum ∧ (t.stack k).stage = (s.stack k).stage - 1)) ∧
  (∀ (lv m : Nat) (y w : List Lane) (rest : List (Nat × List Lane)),
    treePush lv y [] = ([(lv, y)], 0, false) ∧ (m ≠ lv → treePush lv y ((m, w) :: rest) = ((lv, y) :: (m, w) :: rest, 0, false)) ∧
    (anyNonFinite (addLanes w y).1 = false → (treePush lv y ((lv, w) :: rest)).1 = (treePush (lv + 1) (addLanes w y).1 rest).1) ∧
    (treeFold y []).1 = y ∧ (anyNonFinite (addLanes w y).1 = false → (treeFold y ((m, w) :: rest)).1 = (treeFold (addLanes w y).1 rest).1)) ∧
  (∀ id r, look s.reqs id = some r → ∃ t, exec (.gaccRetryResend id) s = .next t ∧ SameMemory s t ∧
    (if r.tc + 256 ≤ s.tc then .gaccArrival (.own id) else .gaccRetryResend id) ∈ t.inflight) ∧
  (∀ k b w rest y c h img, (s.stack k).shares = (b, w) :: rest → look (s.stack k).buckets b = some y → y.st = .running →
    s.freeNmvCore k = some c → s.stackShut k = false → s.tagDead y.atag = false → y.nwin = 0 → y.action.toNat % 64 = 0 →
    s.rbdRead k b y y.action 256 (.shareStart k) = .ok h → 256 < hdrLen h → hdrLen h ≤ 4194304 →
    s.rbdRead k b y (y.action + 256) (hdrLen h - 256) (.shareStart k) = .ok img → magicOk h = true → imageFaults h (h ++ img) = [] →
    nmvBad h = [] → layoutBad h (h ++ img) = [] →
    ∃ t, exec (.shareStart k) s = .next t ∧ (t.stack k).shares = rest ∧ t.mem = s.mem ∧ let q := t.core c
      q.phase = .run ∧ q.pos = bnat h 0x30 4 ∧ q.ctag = BitVec.ofNat 12 y.atag ∧ q.seed0 = y.seed0 ∧ q.seed1 = y.seed1 ∧
      q.ct = (s.core c).ct ∧ q.flags = 0 ∧ q.sreg 1 = BitVec.ofNat 64 (2 ^ 27 * k + b) ∧ q.sreg 2 = BitVec.ofNat 64 (y.shareAt w) ∧
      q.sreg 3 = BitVec.ofNat 64 (y.shareAt (w + 1)) ∧ q.sreg 4 = y.argp ∧ q.sreg 5 = BitVec.ofNat 64 w ∧ q.sreg 6 = BitVec.ofNat 64 y.ways ∧
      ∀ n, 6 < n → q.sreg n = 0) ∧
  (∀ k b y pa, look (s.stack k).buckets b = some y → y.st = .running → b ∈ (s.stack k).copies → s.stackShut k = false → y.nwin = 0 → y.tag = 0 →
    s.tagDead y.atag = false → y.jcb = none → 0 < y.count → y.action.toNat % 1024 + 4 * y.count ≤ 1024 → s.xlate (.rbd k) y.action.toNat 0 .write = .ok pa →
    y.windows = [] → region pa = .ordinary → s.paHeld pa (4 * y.count) 0 false true = false → NoSavedWaits s →
    ∃ t u, exec (.copyOutComplete k b) s = .next t ∧ look (t.stack k).buckets b = some u ∧ u.st = .done ∧ b ∉ (t.stack k).copies ∧
      t.mem.bytes pa (4 * y.count) = (List.range y.count).flatMap (fun e => s.mem.bytes (y.sumPa e) 4) ∧
      ∀ a, a < pa ∨ pa + 4 * y.count ≤ a → t.mem.get a = s.mem.get a) ∧
  (∀ id e peer rtag rcnt radd n, look s.engs id = some e → e.k = .push peer rtag rcnt radd → e.page = none → s.tagDead e.owner = false →
    s.hxd.portTo peer id = some n → e.prog ≠ 0 ∨ (∃ ps, s.readVa e.engine id e.srcTag e.srcZero e.src.toNat e.stack = .data ps ∧
      s.vaHeld e.engine e.srcTag e.src.toNat e.stack e.srcZero = false ∧ s.unmatched e.core e.rid e.iss = false) →
    ∃ t, exec (.pushArrival (.own id)) s = .next t ∧ id ∈ (t.hxd.port n).custody ∧ SameMemory s t) ∧
  (∀ id why, (∃ p ∈ vals s.hxd.ports, id ∈ p.custody) → ∃ t, exec (.pushArrival (.reply id why)) s = .next t ∧ look t.engs id = none ∧
    (∀ p ∈ vals t.hxd.ports, id ∉ p.custody) ∧ SameMemory s t ∧ ∀ e cd, why = some cd → look s.engs id = some e → cd ≠ 0x10 →
      s.ctxAt e.core e.rid = .running → e.page = none → e.eng = 4 → t.core e.core = { s.core e.core with causes := (s.core e.core).causes ++
        [.promise e.seqno (BitVec.ofNat 32 (2 ^ 24 * cd + 2 ^ 20 * e.eng + e.seqno % 4096))] }) ∧
  (∀ pkg ident (va : Word) data radd x, let pa := x.pa + (va.toNat - x.va)
    let answers : List (Nat × Nat × Option Nat) := s.hxd.pushReplies ++ [(pkg, ident, none)]
    data ≠ [] → va.toNat % 1024 + data.length ≤ 1024 → canonical va.toNat = true → s.iommuLeaf va.toNat = some x → x.w = true →
    region pa = .ordinary → s.paHeld pa data.length 0 false true = false → NoSavedWaits s →
    (ident ∉ (look s.hxd.pushes pkg).getD [] → let u := s.walked va.toNat true
      ∃ t, exec (.pushArrival (.peer pkg ident 0 va data 0 radd)) s = .next t ∧ t.mem.bytes pa data.length = data ∧
        (∀ a, a < pa ∨ pa + data.length ≤ a → t.mem.get a = u.mem.get a) ∧ OnlyWaits s t ∧ ident ∈ (look t.hxd.pushes pkg).getD [] ∧
        t.hxd.pushReplies = answers) ∧
    (ident ∈ (look s.hxd.pushes pkg).getD [] → exec (.pushArrival (.peer pkg ident 0 va data 0 radd)) s =
      .next { s with hxd := { s.hxd with pushReplies := answers } }))

/-- 18 R341 to R343, R345, R346, R348 to R350, R353, R358, 22 R417: taking a trap: a precise one as a bundle issues, and an interrupt cause at a
bundle boundary. With a monitor on the die the frame holds what the freeze found and the monitor starts at its entry with every register as it
was; with none, or in the monitor, the context ends fatally, and so does its launch, whose other contexts stop. A result in flight stands in the
frame with its remaining latency, those of the return queue stay in the core, the matrix engine keeps its operations, and RETT puts them back in
flight. A share that faults ends, and its bucket fails. A monitor that changes nothing and returns leaves the kernel where it was. -/
def Obligations.MonitorFreezes : Prop := ∀ (s : State) (c img : Nat) (y : Code),
  let k := s.core c
  let sane : Prop := k.pend = [] ∧ k.mx = [] ∧ k.loops.length ≤ 6 ∧ k.ras.length ≤ 8 ∧ k.pos < 2 ^ 20 ∧ s.tc < 2 ^ 64
  let rest (t : State) : Prop := t.mem = s.mem ∧ t.clusters = s.clusters ∧ ∀ e, e ≠ c → t.core e = s.core e
  let frozen (t : State) (word0 detail addr : Nat) : Prop := rest t ∧ let q := t.core c
    q.tf 0 = word0 ∧ q.tf 1 = detail ∧ q.tf 2 = k.pos ∧ q.tf 3 = addr ∧ q.tf 4 = 0 ∧ q.tf 5 = k.sysMode.toNat ∧ q.tf 6 = k.flags.toNat ∧
    q.tf 10 = s.tc ∧ (∀ n, n < 64 → q.tf (16 + n) = (k.sreg n).toNat) ∧ (∀ n, n < 16 → q.tf (80 + n) = (k.preg n).toNat) ∧
    (∀ n, n < 8 → bit (q.tf 96) n = k.freg n) ∧
    (∀ (i : Nat) (e : LoopEnt), k.loops[i]? = some e → e.start < 2 ^ 20 → e.end_ < 2 ^ 20 →
      q.tf (97 + 2 * i) = e.ix.toNat + 2 ^ 32 * e.count.toNat ∧ q.tf (98 + 2 * i) = e.start + 2 ^ 32 * e.end_) ∧
    (∀ (i r : Nat), k.ras[i]? = some r → r < 2 ^ 20 → q.tf (109 + i) = r) ∧
    (∀ a, a < 0x6000 ∨ 0x6000 + 8 * 954 ≤ a → q.spill.get a = k.spill.get a) ∧
    q.cause.toNat = word0 ∧ q.tfbase = 0x6000 ∧ q.mon.isSome = true ∧ q.phase = .run ∧ q.pos = y.entry ∧ q.loops = [] ∧ q.ras = [] ∧
    q.pend = [] ∧ q.s = k.s ∧ q.v = k.v ∧ q.p = k.p ∧ q.f = k.f ∧ q.k = k.k ∧ q.flags = k.flags ∧ q.banks = k.banks ∧
    ∀ n, codeS n < 0x1000 → codeS n ∉ q.dead
  let queue := k.pend.filter (fun q => q.rq)
  let ended (t : State) (code detail : Nat) (nested : Bool) : Prop :=
    ∃ w ∈ t.hxd.laneH.waiting, w.w0.toNat % 256 = code ∧ bit w.w0.toNat 9 = true ∧ bit w.w0.toNat 10 = nested ∧ w.w1.toNat % 2 ^ 32 = detail
  let fatal (t : State) (code detail : Nat) (nested : Bool) : Prop := rest t ∧ (t.core c).phase = .ended ∧ ended t code detail nested
  (∀ tr : TrapInfo, s.cur = c → isNmv c = false → tr.cause ≠ .badtgt →
    (sane → k.mon = none → (s.die (coreDie c)).monitor = some img → look s.codes img = some y →
      frozen (takeTrap s tr none) (tr.cause.code + 2 ^ 8 * 3 + 2 ^ 10) tr.detail.toNat tr.addr.toNat) ∧
    (k.rid = none → (s.die (coreDie c)).monitor = none ∨ k.mon.isSome = true → k.share = none →
      fatal (takeTrap s tr none) tr.cause.code tr.detail.toNat k.mon.isSome) ∧
    (∀ r l, k.rid = some r → look s.launches r = some l → (s.die (coreDie c)).monitor = none ∨ k.mon.isSome = true → k.share = none →
      k.phase ≠ .ended → let t := takeTrap s tr none
      t.mem = s.mem ∧ t.clusters = s.clusters ∧ (t.core c).phase = .ended ∧ ended t tr.cause.code tr.detail.toNat k.mon.isSome ∧
      (∃ u, look t.launches r = some u ∧ u.state = .stopping true) ∧ .launchComplete r ∈ t.inflight ∧
      ∀ e ∈ l.cores, e ≠ c → ((t.core e).phase = .ended ∨ (t.core e).cancelTc.isSome = true) ∧
        ((s.core e).phase = .table → (t.core e).phase = .ended)) ∧
    (∀ p, k.pend.filter (fun q => !q.rq) = [p] → p.st = .ready → k.ic ≤ p.due → p.due < k.ic + 40 → queue.length ≤ 40 → k.loops.length ≤ 6 →
      k.ras.length ≤ 8 → k.mon = none → (s.die (coreDie c)).monitor = some img → let q := (takeTrap s tr none).core c
      q.pend = [] ∧ q.mx = k.mx ∧ fld (q.tf 9) 32 8 = 1 ∧ fld (q.tf 9) 40 8 = queue.length ∧
      q.tf 256 = p.due + 1 - k.ic + 2 ^ 6 * p.dest.kindNum.1 + 2 ^ 9 * p.dest.kindNum.2 + 2 ^ 20 * nb p.latch.isSome +
        2 ^ 21 * (p.latch.getD 0).toNat + 2 ^ 24 * p.efl.toNat ∧
      (∀ i, i < 16 → q.tf (257 + i) = (p.val.extractLsb' (64 * i) 64).toNat) ∧
      ∃ m, q.mon = some m ∧ m.rq = queue ∧ m.kic = k.ic ∧ ∃ z, (q.restore m).pend = queue ++ [z] ∧ z.due = p.due ∧ z.val = p.val ∧
        z.latch = p.latch ∧ z.efl = p.efl ∧ z.st = .ready ∧ ∀ n, p.dest = .v n → z.dest = .v n)) ∧
  (∀ (tr : TrapInfo) (sh : Share) (b : Bucket), s.cur = c → isNmv c = true → k.mon = none → k.share = some sh → sh.stack < 32 → sh.bucket < 4096 →
    look (s.stack sh.stack).buckets sh.bucket = some b → b.st = .running → b.ident = sh.ident → b.jcb = none → let t := takeTrap s tr none
    t.mem = s.mem ∧ (t.core c).share = none ∧ (t.core c).phase = .idle ∧ ended t tr.cause.code tr.detail.toNat false ∧
    (∃ u, look (t.stack sh.stack).buckets sh.bucket = some u ∧ u.st = .failed) ∧
    ∃ w ∈ t.hxd.laneN.waiting, w.w0.toNat % 256 = 0x55 ∧ w.w1.toNat % 2 ^ 32 = 2 ^ 27 * sh.stack + sh.bucket ∧ w.addr = 3) ∧
  (∀ d : BitVec 32, sane → k.phase = .run → k.causes = [.intr d] → k.op = none → k.release = 0 → k.await = [] → k.out = .no → k.mon = none →
    k.loopDue = false → k.pairBad = none → isNmv c = false → (s.die (coreDie c)).monitor = some img → look s.codes img = some y →
    ∃ t, exec (.monitorFreeze c) s = .next t ∧ frozen t 0x29 d.toNat 0 ∧ (t.core c).causes = [] ∧
      (∀ x, look s.codes k.code = some x → k.pos ∈ x.starts → k.pos < x.hw.length → k.ldecl ≤ k.loops.length →
        (∀ e ∈ k.loops, e.start < 2 ^ 20 ∧ e.end_ < 2 ^ 20) → (∀ r ∈ k.ras, r < 2 ^ 20) → let q := (t.rett c).core c
        q.mon = none ∧ q.phase = .run ∧ q.pos = k.pos ∧ q.ic = k.ic ∧ q.pend = [] ∧ q.op = none ∧ q.await = [] ∧ q.release = 0 ∧
        q.out = .no ∧ q.loops = k.loops ∧ q.ras = k.ras ∧ q.flags = k.flags ∧ q.v = k.v ∧ q.k = k.k ∧ q.banks = k.banks ∧
        q.sbuf = k.sbuf ∧ q.stale = k.stale ∧ (∀ n, n < 64 → q.sreg n = k.sreg n) ∧ (∀ n, n < 16 → q.preg n = k.preg n) ∧
        (∀ n, n < 8 → q.freg n = k.freg n) ∧ ∀ n, 0 < n → n < 64 → (codeS n ∈ q.dead ↔ codeS n ∈ k.dead)))

/-- 20 R379, R384, R385, 18 R359, 07 R152: a rewind puts back the state of the last stitch point, on both cores of a pair, drops the segment's
results and withheld stores but for entries already released, keeps the marks of failed checks, those of the shadow with its values, and sends its
record; a second one in the same segment escalates, and so does one in the windows of 20 R380 step 3 and R383, where the tag is killed, or
under tag 0 the context and its launch end fatally. -/
def Obligations.RewindRestores : Prop := ∀ (s : State) (c : Nat),
  let k := s.core c
  let h := k.shadow
  let back (i : Instr) (code : Nat) : Prop := ∃ t, exec i s = .next t ∧ t.mem = s.mem ∧ t.clusters = s.clusters ∧
    (∀ e, e ≠ c → t.core e = s.core e) ∧
    (∃ w, t.hxd.laneN.waiting = s.hxd.laneN.waiting ++ [w] ∧ w.w0.toNat % 256 = code ∧ w.w1.toNat % 2 ^ 32 = h.pos % 2 ^ 32) ∧ let q := t.core c
    q.s = h.s ∧ q.v = h.v ∧ q.p = h.p ∧ q.f = h.f ∧ q.dead = h.dead ∧ q.loops = h.loops ∧ q.ras = h.ras ∧ q.flags = h.flags ∧
    q.seed0 = h.seed0 ∧ q.seed1 = h.seed1 ∧ q.mask = h.mask ∧ q.alloc = h.alloc ∧ q.pos = h.pos ∧ q.pend = [] ∧ q.bpend = [] ∧ q.mx = [] ∧
    (let out := match k.mon with | some m => m.release | none => k.release
     q.sbuf = k.sbuf.take out ∧ q.release = out) ∧ q.op = none ∧ q.mon = none ∧ q.rewound = true ∧ (∀ n, n < 8 → n ∈ q.stale) ∧ q.ev = k.ev ||| k.evCleared ∧
    (∀ x, x ∈ q.bad ↔ (x ∈ k.bad ∧ x / 0x1000 = 4 ∧ look h.banks (x % 0x1000) = none) ∨ x ∈ h.bad) ∧
    (∀ u, u ∈ q.badSpill ↔ (u ∈ k.badSpill ∧ look h.spill u = none) ∨ u ∈ h.badSpill) ∧
    (k.paired = true → ∃ f, look t.followers (partner c) = some f ∧ f.lag = [] ∧ f.k.follow = true ∧ SameRegs q f.k) ∧
    (∀ b, rises h.banks = true → q.bank b = (look h.banks b).getD (k.bank b)) ∧
    (rises h.spill = true → (∀ e ∈ h.spill, e.2.length = 128) →
      (∀ u bs, look h.spill u = some bs → q.spill.bytes (128 * u) 128 = bs) ∧
      ∀ a, look h.spill (a / 128) = none → q.spill.get a = k.spill.get a) ∧
    ∀ p ∈ k.causes, (match p with | .promise _ _ | .overarr _ | .intr _ | .nf _ => True | _ => False) → p ∈ q.causes
  let live : Prop := k.phase ≠ .ended ∧ k.phase ≠ .idle
  (live → k.rewound = false → k.window = false →
    (∀ p pa, p ∈ k.pend → p.st = .poison pa → p.due ≤ k.ic → back (.rewind c false) 0x21) ∧ (k.paired = true → back (.rewind c true) 0x22)) ∧
  (∀ (i : Instr) (code : Nat), (i = .rewind c false ∧ code = 0x21 ∧ ∃ p ∈ k.pend, (∃ pa, p.st = .poison pa) ∧ p.due ≤ k.ic) ∨
      (i = .rewind c true ∧ code = 0x22 ∧ k.paired = true) →
    live → k.rewound = true ∨ k.window = true → h.pos < 2 ^ 20 →
    let escalates (t : State) : Prop := t.mem = s.mem ∧ (t.core c).phase = .ended ∧
      ∃ w ∈ t.hxd.laneH.waiting, w.w0.toNat % 256 = 0x42 ∧ w.w1.toNat % 2 ^ 32 = h.pos + 2 ^ 20 * nb k.window
    (k.ctag ≠ 0 → ∃ t, exec i s = .next t ∧ escalates t ∧ .tagKill k.ctag.toNat 10 c ∈ t.inflight) ∧
    (k.ctag = 0 → k.share = none → ∃ t, exec i s = .next t ∧ escalates t ∧
      (∃ w ∈ t.hxd.laneH.waiting, w.w0.toNat % 256 = code ∧ bit w.w0.toNat 9 = true ∧ bit w.w0.toNat 10 = false) ∧
      ∀ r l, k.rid = some r → look s.launches r = some l → ∃ u, look t.launches r = some u ∧ u.state = .stopping true)) ∧
  (k.duePoison = none → exec (.rewind c false) s = .next s)

/-- 18 R360 to R368: a context saved into its slot and brought back, the save of a cluster, and the limits on a save and on a context that
issues nothing. That the data kept beside the slot are what comes back while CHECK holds, and the places of the words of a sleeve and of a
header, are the model's (log 29). -/
def Obligations.SwitchSteps : Prop := ∀ (s : State) (c rid : Nat) (l : Launch),
  let k := s.core c
  let inMemory (slot : Nat) : Prop := ∀ a, a < 2 ^ 20 → region (s.slotPa slot + a) = .ordinary
  (k.rid = some rid → look s.launches rid = some l →
    (∀ tc n, k.out = .saving tc → k.phase ≠ .ended → k.release = 0 → (∀ p ∈ k.pend, p.rq = true → p.st ≠ .wait ∧ p.st ≠ .xlat) →
      look l.slots k.lidx = some n → inMemory n → s.paHeld (s.slotPa n) = false → (∀ b, (k.bank b).length = 256) →
      (k.running = none ∨ ∀ x, look s.codes k.code = some x → x.restarts = []) →
      ∃ t y, exec (.switchOut c) s = .next t ∧ t.core c = Core.reset ∧ c ∉ t.active ∧ look t.followers (partner c) = none ∧
        (∀ e, e ≠ c → e ≠ partner c ∨ look s.followers e = none → t.core e = s.core e) ∧
        look t.saved n = some y ∧ y.core = c ∧ SameRegs k.settleMx y.k ∧ y.k.phase = k.phase ∧ y.k.pend = k.pend ∧ y.k.op = k.op ∧ y.k.rid = k.rid ∧
        n ∈ t.hxd.slotsUsed ∧ t.slotOk n = true ∧ (∀ a, a < s.slotPa n ∨ s.slotPa n + 2 ^ 20 ≤ a → t.mem.get a = s.mem.get a) ∧
        let at_ (o m : Nat) : Nat := t.mem.nat (s.slotPa n + o) m
        at_ 0 1 = 1 ∧ at_ 0x20 8 = k.flags.toNat ∧ at_ 0x28 8 = k.seed0.toNat ∧ at_ 0x30 8 = k.seed1.toNat ∧
        (k.phase = .run → k.op = none → at_ 0x10 8 % 2 ^ 20 = k.pos % 2 ^ 20) ∧
        (∀ i, i < 64 → at_ (0x100 + 8 * i) 8 = (k.sreg i).toNat) ∧ (∀ i, i < 16 → at_ (0x300 + 8 * i) 8 = (k.preg i).toNat) ∧
        (∀ a, a < 32768 → t.mem.get (s.slotPa n + 0x8000 + a) = k.spill.get a) ∧
        ∀ i, i < 2048 → codeV i ∉ k.dead → at_ (0x1_0000 + 128 * i) 128 = (k.vreg i).toNat) ∧
    (∀ tc, k.out = .requested tc ∨ k.out = .saving tc → k.phase ≠ .ended →
      (tc + (s.die (coreDie c)).wdsave.toNat ≤ s.tc → k.ctag ≠ 0 → ∃ t, exec (.saveTimeout c) s = .next t ∧ t.core c = Core.reset ∧
        c ∉ t.active ∧ t.clusters = s.clusters ∧ .tagKill k.ctag.toNat 11 0 ∈ t.inflight ∧
        ∃ w ∈ t.hxd.laneH.waiting, w.w0.toNat % 256 = 0x23 ∧ w.w1.toNat % 2 ^ 32 = 4) ∧
      (s.tc < tc + (s.die (coreDie c)).wdsave.toNat → exec (.saveTimeout c) s = .next s)) ∧
    (isNmv c = false → k.phase = .run → k.share = none → let lim := (s.die (coreDie c)).wdlimit.toNat
      (lim ≠ 0 → k.lastIssue + lim ≤ s.tc → ∃ t u, exec (.hangTimeout c) s = .next t ∧ (t.core c).phase = .ended ∧
        look t.launches rid = some u ∧ u.state = .stopping true ∧
        ∃ w ∈ t.hxd.laneH.waiting, w.w0.toNat % 256 = 0x23 ∧ w.w1.toNat % 2 ^ 32 = k.hangKind) ∧
      (lim = 0 ∨ s.tc < k.lastIssue + lim → exec (.hangTimeout c) s = .next s))) ∧
  (∀ cl, look s.launches rid = some l → l.state = .preempting → cl ∈ l.clusters → s.clusterOut rid cl = true →
    s.fillsCluster rid cl = false → s.slotsHeld ((l.clusterSlots cl).map Prod.snd) = false →
    (∀ e ∈ l.clusterSlots cl, inMemory e.2) → ((l.clusterSlots cl).map Prod.snd).Nodup →
    (∀ n, ((s.cluster cl).slice n).fifo.length ≤ 6144) →
    ∃ t u, exec (.clusterSave rid cl) s = .next t ∧ t.cores = s.cores ∧ t.clusters = s.clusters ∧ look t.launches rid = some u ∧
      u.clusters = without l.clusters cl ∧
      (∀ h, look (l.clusterSlots cl) 0 = some h → ∀ n, n < 32 →
        fld (t.mem.nat (s.slotPa h) 8) (2 * n) 2 = (match ((s.cluster cl).slice n).mode with | .cache => 1 | .scratch => 2 | .fifo => 3) ∧
        t.mem.nat (s.slotPa h + 8 + 8 * n) 8 = ((s.cluster cl).slice n).fifo.length) ∧
      ∀ n m, look (l.clusterSlots cl) (n + 1) = some m → ((s.cluster cl).slice n).mode = .scratch →
        t.mem.bytes (s.slotPa m) 786432 = (s.cluster cl).mem.bytes (786432 * n) 786432) ∧
  (∀ n x, look s.launches rid = some l → l.state = .placed → s.saved = [(n, x)] → x.k.rid = some rid → inMemory n → s.slotOk n = true →
    s.mem.nat (s.slotPa n) 1 = 1 → x.k.mailbox.ents = [] → s.slotsHeld (n :: l.slots.map Prod.snd) = false →
    ∃ t, exec (.contextRestore rid) s = .next t ∧ t.saved = [] ∧ x.core ∈ t.active ∧ t.mem.nat (s.slotPa n) 8 = 0 ∧ n ∉ t.hxd.slotsUsed ∧
      .placementPass ∈ t.inflight ∧ (∀ a, a < s.slotPa n ∨ s.slotPa n + 8 ≤ a → t.mem.get a = s.mem.get a) ∧ let q := t.core x.core
      let base := if x.k.mon.isNone then x.k.unsettle else x.k
      SameRegs { base with ev := x.k.ev ||| x.k.mailbox.ev } q ∧ q.phase = x.k.phase ∧ q.causes = x.k.causes ∧ q.spill = x.k.spill ∧
      q.op = x.k.op ∧ q.out = .no ∧ ((∀ e ∈ s.reqs, e.2.core = x.core → e.2.rid ≠ x.k.rid) → (∀ p ∈ x.k.pend, ∀ i, p.st ≠ .page i) →
        q.pend = x.k.pend) ∧
      (q.paired = true → ∃ f, look t.followers (partner x.core) = some f ∧ f.lag = [] ∧ SameRegs q f.k))

/-- 04 R73, R74, R79, 05 R81, R84, 12 R252 to R254, R259, 18 R348, R355, R356, 20 R396, 22 R413, 25 R442, R443, R459, 26 R449, R453, R454: the
trap-record rings and their messages, format windows, stride patterns, dead granules, bucket records, and writes of register blocks and of
both mailboxes. That the connector's bytes arrive by the same step as a register block's is the model's (log 14), and so are low bits of a base
that read 0 (log 23), the end of an unknown command as an error (log 24), EN 0 after a refused enable (log 66), and which module has a connector
(log 5). -/
def Obligations.RegisterSteps : Prop := ∀ (s : State) (v : Word),
  let same (t : State) : Prop := SameMemory s t ∧ t.cores = s.cores
  let owes (i j : Instr) : Prop := ∃ t, exec i s = .next t ∧ j ∈ t.inflight ∧ same t
  (∀ (h : Bool) (x : TRec) (rest : List TRec), let r := s.hxd.lane h
    let w := (look s.hxd.regs (iqCtl h)).getD 0
    (r.waiting = x :: rest → r.full = true → exec (.trapRecordWrite h) s = .next s) ∧
    (r.waiting = x :: rest → r.full = false → (h = true ∨ s.hxd.laneH.waiting = []) → s.paHeld r.slotPa = false → region r.slotPa = .ordinary →
      w.getLsbD 31 = false → ∃ t, exec (.trapRecordWrite h) s = .next t ∧ t.cores = s.cores ∧ t.clusters = s.clusters ∧
        t.mem.nat r.slotPa 8 = x.w0.toNat ∧ t.mem.nat (r.slotPa + 8) 8 = x.w1.toNat ∧ t.mem.nat (r.slotPa + 16) 8 = x.addr.toNat ∧
        t.mem.nat (r.slotPa + 24) 8 = x.tc.toNat ∧ (∀ a, a < r.slotPa ∨ r.slotPa + 32 ≤ a → t.mem.get a = s.mem.get a) ∧
        (t.hxd.lane h).head = r.head + 1 ∧ (t.hxd.lane h).waiting = rest ∧ (t.hxd.lane h).done = r.done ∧ t.hxd.lane (!h) = s.hxd.lane (!h)) ∧
    (∃ t, exec (.trDoneWrite h v) s = .next t ∧ t.cores = s.cores ∧ (t.hxd.lane h).done = v.setWidth 32 ∧ (t.hxd.lane h).head = r.head ∧
      (r.head = v.setWidth 32 → same t ∧ ∀ u, look t.hxd.regs (iqCtl h) = some u → u.getLsbD 32 = false) ∧
      (r.head ≠ v.setWidth 32 → (∃ u, look s.hxd.regs (iqCtl h) = some u ∧ u.getLsbD 31 = true) → s.mgmt.endpoint = false →
        region (s.hxd.iqAddr h) = .ordinary → t.mem.nat (s.hxd.iqAddr h) 4 = w.toNat % 2048 ∧
        (∀ a, a < s.hxd.iqAddr h ∨ s.hxd.iqAddr h + 4 ≤ a → t.mem.get a = s.mem.get a) ∧
        ∃ u, look t.hxd.regs (iqCtl h) = some u ∧ u.getLsbD 32 = true)) ∧
    (∃ t, exec (.trCtlWrite h v) s = .next t ∧ same t ∧ (t.hxd.lane h).ctl = BitVec.ofNat 64 (v.toNat % 32) ∧ (t.hxd.lane h).head = r.head ∧
      (r.waiting ≠ [] → .trapRecordWrite h ∈ t.inflight))) ∧
  (∀ (n : Nat) (ctrl : BitVec 32), n < 64 →
    let o := s.hxd.win n
    let others (t : State) : Prop := ∀ m, m ≠ n → t.hxd.win m = s.hxd.win m
    (∀ ty, ctrl.getLsbD 31 = true → decTy (ctrl.toNat % 256) = some ty → ty ∉ [.untyped, .t6, .mom8] → ctrl.toNat / 2 ^ 10 % 64 = 0 →
      o.at 0 % 4096 = 0 → o.at 0 < o.at 1 → inOrdinary (o.at 0) (o.at 1 - o.at 0) = true → 8 * (o.at 1 - o.at 0) % ty.width = 0 →
      ∃ t, exec (.fwEnable n ctrl) s = .next t ∧ same t ∧ others t ∧ let w := t.hxd.win n
        w.en = true ∧ w.fmt = some ty ∧ w.at 0 = o.at 0 ∧ w.at 1 = o.at 1 ∧ w.at 4 / 2 ^ 32 = 0) ∧
    (o.at 0 % 4096 ≠ 0 → ∃ t, exec (.fwEnable n ctrl) s = .next t ∧ same t ∧ others t ∧ (t.hxd.win n).en = false ∧
      (t.hxd.win n).at 4 = 2 ^ 32 ∧ ∃ w, t.hxd.laneN.waiting = s.hxd.laneN.waiting ++ [w] ∧ w.w0.toNat % 256 = 0x51 ∧
        w.w1.toNat % 2 ^ 32 = n + 256) ∧
    (∃ t, exec (.fwDisable n ctrl) s = .next t ∧ same t ∧ others t ∧ (t.hxd.win n).en = false ∧ (t.hxd.win n).regs = o.regs) ∧
    let p := s.hxd.pat n
    let set (i : Instr) (b : Bool) : Prop := ∃ t, exec i s = .next t ∧ same t ∧ (t.hxd.pat n).en = b ∧ (t.hxd.pat n).regs = p.regs ∧
      (∀ j, j < 8 → (t.hxd.pat n).ctrl.getLsbD j = ctrl.getLsbD j) ∧ ∀ m, m ≠ n → t.hxd.pat m = s.hxd.pat m
    set (.sptEnable n ctrl) true ∧ set (.sptDisable n ctrl) false) ∧
  (∀ k, k < 32 → let n := v.toNat / 2 ^ 48 + 1
    let pa := v.toNat / 2 ^ 16 % 2 ^ 26 * 65536
    (inOrdinary pa (65536 * n) = true → paStack pa = k → s.stackShut k = false → ∃ t, exec (.rbDead k v) s = .next t ∧ t.cores = s.cores ∧
      t.clusters = s.clusters ∧ (∀ a, pa ≤ a → a < pa + 65536 * n → t.mem.get a = 0) ∧
      (∀ a, a < pa ∨ pa + 65536 * n ≤ a → t.mem.get a = s.mem.get a) ∧ ∀ i, i < n → granule64 pa + i ∈ (t.stack k).deadG) ∧
    (inOrdinary pa (65536 * n) = false ∨ paStack pa ≠ k → ∃ t, exec (.rbDead k v) s = .next t ∧ same t ∧ ∃ w,
      t.hxd.laneN.waiting = s.hxd.laneN.waiting ++ [w] ∧ w.w0.toNat % 256 = 0x52 ∧ w.w1.toNat % 2 ^ 32 = k ∧ w.addr = v)) ∧
  (∀ k b x, b = v.toNat % 4096 → look (s.stack k).buckets b = some x →
    (x.st = .done ∨ x.st = .failed ∨ x.st = .nonfinite → ∃ t, exec (.rbBkrel k v) s = .next t ∧ same t ∧ look (t.stack k).buckets b = none ∧
      ∀ c, c ≠ b → look (t.stack k).buckets c = look (s.stack k).buckets c) ∧
    (x.st = .open_ ∨ x.st = .running → exec (.rbBkrel k v) s = .next s)) ∧
  (let writes (b : Block) (i off : Nat) (P : State → Prop) : Prop := ∃ t, exec (.registerWrite b i off 8 v) s = .next t ∧ same t ∧ P t
   (s.mgmt.st = .running →
    (∀ d, d < 64 → (s.die d).st = .live → exec (.registerWrite .launchPort d 0 8 v) s = exec (.lpSubmit d v) s ∧
      owes (.registerWrite .launchPort d 0x10 8 v) (.lpCancel d v) ∧ writes .launchPort d 0x30 (fun t => (t.die d).wdlimit = v)) ∧
    writes .arbiter 0 0 (fun t => t.hxd.paAging = v) ∧
    (s.saved = [] → writes .arbiter 0 0x28 (fun t => t.hxd.saveSlots = v.toNat % 4096 ∧ .placementPass ∈ t.inflight)) ∧
    (∀ n, n < 64 → writes .salder 0 (0x100 + 8 * n) (fun t => (t.hxd.port n).ctl.toNat = v.toNat % 2)) ∧ owes (.registerWrite .tagAlloc 0 0 8 v) (.tgaLimitWrite v) ∧
    (∀ k, k < 32 → owes (.registerWrite .rbd k 0 8 v) (.rbDead k v) ∧ owes (.registerWrite .rbd k 0x30 8 v) (.rbBkrel k v) ∧
      writes .rbd k 0x10 (fun t => (t.stack k).threshold = if 512 ≤ v.toNat % 65536 ∧ v.toNat % 65536 ≤ 32768 then v.toNat % 65536
        else (s.stack k).threshold)) ∧
    writes .trapRec 0 0 (fun t => t.hxd.laneH.base = BitVec.ofNat 64 (v.toNat / 4096 * 4096)) ∧
    owes (.registerWrite .trapRec 0 0x18 8 v) (.trDoneWrite true v) ∧
    writes .contain 0 8 (fun t => t.hxd.auditLog2 = if 20 ≤ v.toNat % 64 ∧ v.toNat % 64 ≤ 40 then v.toNat % 64 else s.hxd.auditLog2)) ∧
   (∀ (b : Block) (i off size : Nat), b ≠ .launchPort ∨ 64 ≤ i ∨ (s.die i).st = .live →
     size ∉ [1, 2, 4, 8] ∨ off % size ≠ 0 ∨ (b ≠ .fwTable ∧ b ≠ .spt ∧ b ≠ .mgmt ∧ b ≠ .connector ∧ size ≠ 8) → exec (.registerWrite b i off size v) s = .next s) ∧
   (∀ i off size, s.mgmt.st = .running → i < 64 → (s.die i).st ≠ .live → ∃ t, exec (.registerWrite .launchPort i off size v) s = .next t ∧ same t ∧
     look (t.die i).refused s.hostSrc = some ((look (s.die i).refused s.hostSrc).getD 0 + 1)) ∧
   (∀ (b : Block) (i off size : Nat), s.mgmt.st ≠ .running → b ≠ .connector → exec (.registerWrite b i off size v) s = .next s)) ∧
  (let cmd := v.toNat % 256
   let len := v.toNat / 2 ^ 16 % 8192
   let state (c : Bool) (t : State) : Nat := (t.mgmt.cmdOf c).toNat / 256 % 4
   ∀ (c : Bool) (i : Nat), c = true ∧ s.mgmt.md = true ∨ c = false ∧ s.mgmt.st = .running ∧ i = 0 → let b : Block := if c then .connector else .mgmt
     (s.mgmt.busy c = true → exec (.registerWrite b i 0x28 8 v) s = .next s) ∧
     (s.mgmt.busy c = false → ∃ t, exec (.registerWrite b i 0x28 8 v) s = .next t ∧ same t ∧ (t.mgmt.cmdOf c).toNat % 256 = cmd ∧
       t.mgmt.cmdOf (!c) = s.mgmt.cmdOf (!c) ∧
       (4096 < len → state c t = 3 ∧ (t.mgmt.cmdOf c).toNat / 2 ^ 16 % 256 = 6) ∧
       (len ≤ 4096 → cmd ∉ [1, 2, 3] → state c t = 3) ∧
       (len ≤ 4096 → cmd ∈ [1, 2, 3] → state c t = 1 ∧ (cmd = 1 → .upwrite c ∈ t.inflight) ∧ (cmd = 3 → .attest c ∈ t.inflight))) ∧
     ∀ o size, size ∈ [1, 2, 4, 8] → o % size = 0 → o < 4096 → ∃ t, exec (.registerWrite b i (0x1000 + o) size v) s = .next t ∧ same t ∧
       ∀ n, n < 4096 → (t.mgmt.bufOf c).getD n 0 = if o ≤ n ∧ n < o + size then BitVec.ofNat 8 (v.toNat / 256 ^ (n - o))
         else (s.mgmt.bufOf c).getD n 0)

/-- 12 R254 to R258, 20 R392, 26 R453: refresh, activation alerts, the thermal states of a stack, and the reset of an RBD in place. A bank that
an alert closed opens again after the least time that the rule allows. That the failing index of an earlier CTLD goes with VALID at the reset
is the model's (log 118). -/
def Obligations.StackSteps : Prop := ∀ (s : State) (k ch bank row temp : Nat),
  let x := s.stack k
  let same (t : State) : Prop := SameMemory s t ∧ t.cores = s.cores ∧ ∀ j, j ≠ k → t.stack j = s.stack j
  let goes (i : Instr) (th : Therm) (tm sr : Nat) : Prop := ∃ t, exec i s = .next t ∧ same t ∧
    t.stack k = { x with therm := th, temp := tm, srTc := sr } ∧ t.mgmt.evhead = s.mgmt.evhead + 1 ∧
    ∃ e, look t.mgmt.events (s.mgmt.evhead.toNat % 4096) = some e ∧ e.2.2 = BitVec.ofNat 64 s.tc
  let b := ch * 48 + bank
  let key (r : Nat) : Nat := r * 2 ^ 16 + b
  (x.therm ≠ .selfref → x.rowDead ch bank row = false → ∃ t, exec (.refresh k ch bank row) s = .next t ∧ same t ∧
    look (t.stack k).rows (key row) = none ∧ ∀ j, j ≠ key row → look (t.stack k).rows j = look x.rows j) ∧
  (x.therm = .selfref → exec (.refresh k ch bank row) s = .next s) ∧
  (x.therm ≠ .selfref → look x.closed b = none → x.threshold ≤ (look x.rows (key row)).getD 0 → ∃ t, exec (.activationAlert k ch bank row) s = .next t ∧ same t ∧
    (t.stack k).alerts = x.alerts + 1 ∧ look (t.stack k).closed b = some s.tc ∧
    (∀ r, row - 2 ≤ r → r ≤ row + 2 → look (t.stack k).rows (key r) = none) ∧
    ∀ j, (∀ r, row - 2 ≤ r → r ≤ row + 2 → j ≠ key r) → look (t.stack k).rows j = look x.rows j) ∧
  (x.therm = .selfref ∨ look x.closed b ≠ none ∨ (look x.rows (key row)).getD 0 < x.threshold → ∃ t,
    exec (.activationAlert k ch bank row) s = .next t ∧ same t ∧ t.stack k = x) ∧
  (∀ tc, look x.closed b = some tc →
    (tc + 504 ≤ s.tc → ∃ t, exec (.alertBankReopen k ch bank) s = .next t ∧ same t ∧ look (t.stack k).closed b = none) ∧
    (s.tc < tc + 504 → exec (.alertBankReopen k ch bank) s = .next s)) ∧
  (x.therm = .normal → 95 ≤ temp → goes (.rbdWarm k temp) .warm temp x.srTc) ∧
  (x.therm = .warm → temp < 90 → goes (.rbdNormal k temp) .normal temp x.srTc) ∧
  (x.therm = .normal ∨ x.therm = .warm → 105 ≤ temp → goes (.rbdDraining k temp) .draining temp x.srTc) ∧
  (x.therm = .draining → ∃ t, exec (.rbdSelfref k) s = .next t ∧ same t ∧ t.mgmt.evhead = s.mgmt.evhead + 1 ∧
    (∃ e, look t.mgmt.events (s.mgmt.evhead.toNat % 4096) = some e ∧ e.2.2 = BitVec.ofNat 64 s.tc) ∧ t.stack k = { x with therm := .selfref, srTc := s.tc, rows := [] }) ∧
  (x.therm = .selfref → temp < 90 → x.srTc + 1800000 ≤ s.tc → goes (.rbdSelfrefExit k temp) .normal temp x.srTc) ∧
  (temp < 95 → exec (.rbdWarm k temp) s = .next s) ∧ (temp < 105 → exec (.rbdDraining k temp) s = .next s) ∧
  (90 ≤ temp → exec (.rbdNormal k temp) s = .next s ∧ exec (.rbdSelfrefExit k temp) s = .next s) ∧
  (∀ lost, x.resetting = false → (∀ id ∈ lost, look s.reqs id = none ∧ look s.engs id = none) → (∀ e ∈ x.buckets, e.2.tag = 0) →
    rises s.reqs = true → rises s.engs = true → ∃ t, exec (.rbdReset k lost) s = .next t ∧ SameMemory s t ∧
      (∀ j, j ≠ k → t.stack j = s.stack j) ∧ t.stack k = { x with resetting := true, killed := [], rows := [] } ∧ t.stackShut k = true ∧
      t.reqs = s.reqs ∧ t.engs = s.engs ∧
      ∀ c, t.core c = if isNmv c = true ∧ nmvStack c = k then { s.core c with ctValid := false, ctFail := 0 } else s.core c) ∧
  (x.resetting = true → k < 32 → ∃ t, exec (.rbdResetResume k) s = .next t ∧ SameMemory s t ∧ t.cores = s.cores ∧ (t.stack k).resetting = false ∧
    ∃ w, t.hxd.laneH.waiting = s.hxd.laneH.waiting ++ [w] ∧ w.w0.toNat % 256 = 0x47 ∧
      w.w1.toNat % 2 ^ 32 = (k + 2 ^ 8 * x.killed.length) % 2 ^ 32)

/-- 20 R377, R378, R387, R389, R393 to R397, 26 R451: what an error does in the structures that hold data and control, heartbeats, the steps of
a die's fence, the failure of the package domain and the permit audit. That a fence of a die that is not LIVE does nothing, that HOLD holds from
the fourth fence on, and that the count goes on once HOLD was cleared, are the model's readings (log 88), a unit of a local store that takes no
record is too (log 119), and an audit's discrepancy comes from the outside (log 109). -/
def Obligations.ContainSteps : Prop := ∀ (s : State) (d : Nat),
  let x := s.die d
  let same (t : State) : Prop := SameMemory s t ∧ t.cores = s.cores
  let told (t : State) (h : Bool) (code detail : Nat) : Prop := ∃ w, (t.hxd.lane h).waiting = (s.hxd.lane h).waiting ++ [w] ∧
    w.w0.toNat % 256 = code ∧ w.w1.toNat % 2 ^ 32 = detail
  let errs (e : ErrSite) (P : State → Prop) : Prop := ∃ t, exec (.uncorrectableError e) s = .next t ∧ SameMemory s t ∧ P t
  (∀ pa, region pa = .ordinary → let k := paStack pa
    (pa / 128 ∉ (s.stack k).poison → granule64 pa ∉ (s.stack k).deadG → errs (.dram pa) (fun t => pa / 128 ∈ (t.stack k).poison ∧
      t.cores = s.cores ∧ told t false 0x40 1)) ∧
    (pa / 128 ∈ (s.stack k).poison ∨ granule64 pa ∈ (s.stack k).deadG → exec (.uncorrectableError (.dram pa)) s = .next s)) ∧
  (∀ cl a, ((s.cluster cl).slice (sliceOf a)).mode = .scratch → a < 0x180_0000 → a / 128 ∉ (s.cluster cl).poison →
    errs (.slice cl a) (fun t => a / 128 ∈ (t.cluster cl).poison ∧ t.cores = s.cores ∧ told t false 0x40 2)) ∧
  (∀ c n, (s.core c).phase ≠ .idle → (s.core c).phase ≠ .ended → look s.followers c = none →
    let marks (e : ErrSite) (code : Nat) : Prop := errs e (fun t => t.core c = { s.core c with bad := addNew (s.core c).bad code } ∧
      t.hxd = s.hxd ∧ ∀ j, j ≠ c → t.core j = s.core j)
    marks (.sreg c n) n ∧ marks (.vreg c n) (0x1000 + n) ∧ marks (.preg c n) (0x2000 + n) ∧ marks (.freg c n) (0x3000 + n) ∧
    marks (.bank c n) (0x4000 + n) ∧ marks (.latch c n) (0x5000 + n)) ∧
  (∀ c off, off < 32768 → look s.followers c = none → errs (.spill c off) (fun t => off / 128 ∈ (t.core c).badSpill)) ∧
  (∀ c off, errs (.localStore c off) (fun t => off / 128 ∈ (t.core c).badLocal ∧ t.hxd = s.hxd)) ∧
  (∀ st tag a, tag ≠ 0 → errs (.reqEntry st tag a) (fun t => .tagKill tag st a ∈ t.inflight ∧ t.cores = s.cores)) ∧
  errs (.dieCtl d) (fun t => .dieFence d 1 ∈ t.inflight ∧ t.cores = s.cores) ∧
  (∀ st, errs (.hxd st) (fun t => .packageFail st ∈ t.inflight ∧ t.cores = s.cores)) ∧
  (∀ line, errs (.copyOfCleanLine d line) (fun t => t.cores = s.cores ∧ t.hxd = s.hxd ∧
    t.die d = { x with guest := x.guest.filter (fun g => g.1 % 2 ^ 49 != line) })) ∧
  (∃ t, exec (.correctedError (.die d)) s = .next t ∧ same t ∧ t.die d = { x with corrected := x.corrected + 1 } ∧ t.hxd = s.hxd) ∧
  (∃ t, exec (.correctedError (.rbd d)) s = .next t ∧ same t ∧ t.stack d = { s.stack d with corrected := (s.stack d).corrected + 1 } ∧
    t.hxd = s.hxd ∧ t.dies = s.dies) ∧
  (x.st = .live → (∃ t, exec (.heartbeat d) s = .next t ∧ same t ∧ t.die d = { x with missed := 0, beat := s.tc }) ∧
    (x.beat + 65536 ≤ s.tc → ∃ t, exec (.heartbeatMiss d) s = .next t ∧ same t ∧
      t.die d = { x with missed := x.missed + 1, beat := s.tc } ∧ (2 ≤ x.missed → .dieFence d 2 ∈ t.inflight)) ∧
    (s.tc < x.beat + 65536 → exec (.heartbeatMiss d) s = .next s)) ∧
  (let fences (i : Instr) (reason : Nat) : Prop := ∃ t, exec i s = .next t ∧ same t ∧ (t.die d).st = .fencing ∧
      (t.die d).fences = x.fences + 1 ∧ told t true 0x43 (d + 2 ^ 8 * reason + 2 ^ 16 * nb (decide (3 ≤ x.fences))) ∧
      .placementPass ∈ t.inflight
   (d < 64 → x.st = .live → fences (.ctFenceFence d) 6 ∧ ∀ r, r < 256 → fences (.dieFence d r) r) ∧
   (x.st ≠ .live → exec (.ctFenceFence d) s = .next s ∧ ∀ r, exec (.dieFence d r) s = .next s)) ∧
  (x.st = .held → ∃ t, exec (.ctFenceClearHold d) s = .next t ∧ same t ∧ (t.die d).st = .resetting) ∧
  (x.st ≠ .held → exec (.ctFenceClearHold d) s = .next s) ∧
  (d < 64 → x.st = .fencing → x.lost = false → s.launches = [] → ∃ t, exec (.dieQuiesced d) s = .next t ∧ same t ∧ (t.die d).lost = true ∧
    (∀ c ∈ t.active, isNmv c = true ∨ coreDie c ≠ d) ∧ ∀ e ∈ t.engs, isNmv e.2.core = true ∨ coreDie e.2.core ≠ d) ∧
  (d < 64 → x.st = .fencing → x.lost = true → x.fences < 4 → ∃ t, exec (.dieSalvaged d []) s = .next t ∧ t.mem = s.mem ∧
    (t.die d).st = .resetting ∧ (t.die d).dirty = [] ∧ (t.die d).guest = [] ∧
    told t true 0x44 ((d + 2 ^ 7 * x.dirty.length) % 2 ^ 32) ∧ (∀ c, c < 2048 → coreDie c = d → t.core c = Core.reset ∧ c ∉ t.active) ∧
    (∀ c, c < 2048 → coreDie c ≠ d → t.core c = s.core c) ∧ ∀ n, clusterDie n = d → t.cluster n = Cluster.reset) ∧
  (d < 64 → x.st = .resetting → s.launches = [] →
    (x.refused = [] → ∃ t, exec (.dieReadmit d true) s = .next t ∧ same t ∧ (t.die d).st = .live ∧ told t false 0x45 d) ∧
    (x.unheld = false → ∃ t, exec (.dieReadmit d false) s = .next t ∧ same t ∧ (t.die d).st = .fencing ∧ (t.die d).lost = false ∧
      (t.die d).fences = x.fences + 1 ∧ told t true 0x43 (d + 2 ^ 8 * 5 + 2 ^ 16 * nb (decide (3 ≤ x.fences)))) ∧
    (x.unheld = true → ∃ t, exec (.dieReadmit d false) s = .next t ∧ same t ∧ (t.die d).st = .held ∧
      (t.die d).fences = x.fences + 1 ∧ told t true 0x43 (d + 2 ^ 8 * 5 + 2 ^ 16))) ∧
  (∀ st, st < 256 →
    (s.hxd.pkgFailed = false → ∃ t, exec (.packageFail st) s = .next t ∧ same t ∧ t.hxd.pkgFailed = true ∧ told t true 0x48 st) ∧
    (s.hxd.pkgFailed = true → exec (.packageFail st) s = .next s)) ∧
  (∀ l, s.tc < s.hxd.auditTc + 2 ^ s.hxd.auditLog2 → exec (.permitAudit l) s = .next s) ∧
  (s.hxd.auditTc + 2 ^ s.hxd.auditLog2 ≤ s.tc → ∃ t, exec (.permitAudit []) s = .next t ∧ same t ∧ t.hxd.audits = s.hxd.audits + 1 ∧ ∀ j, j < 68 → (t.die j).auditBad = []) ∧
  (∀ y : Discrepancy, s.hxd.auditTc + 2 ^ s.hxd.auditLog2 ≤ s.tc → s.withholds y = false → y.die < 64 → y.link < 8 → y.vc < 16 → y.n < 65536 → ∃ t, exec (.permitAudit [y]) s = .next t ∧ same t ∧
    told t true 0x46 (y.die + 2 ^ 8 * y.link + 2 ^ 11 * y.vc + 2 ^ 15 * nb y.dup + 2 ^ 16 * y.n) ∧ (t.die y.die).auditBad = [y.link] ∧
    (y.link ∈ (s.die y.die).auditBad → .dieFence y.die 4 ∈ t.inflight))

/-- 25 R445 to R447: the Salder ports. 26 R449 to R456: the start, sensors, clocks, trips, the supply and the mailbox commands. These are the
model's: that memory reads as never written after a reset or a trip (log 3), which fields a cold reset keeps (log 71), that the package's power
is the reading of sensor 101 (log 61), the order of UPCOMMIT's errors and what counts as an update under way (log 72), a trip only on a sample in
the state (log 73), and the signature's outcome as an operand (log 19). -/
def Obligations.PortAndManagementSteps : Prop := ∀ (s : State) (n : Nat),
  let p := s.hxd.port n
  let m := s.mgmt
  let same (t : State) : Prop := SameMemory s t ∧ t.cores = s.cores
  let ports (i : Instr) (q : Port) : Prop := ∃ t, exec i s = .next t ∧ same t ∧ t.hxd.port n = q ∧ ∀ j, j ≠ n → t.hxd.port j = s.hxd.port j
  (n < 64 →
    (∃ t, exec (.salderPortEnable n) s = .next t ∧ same t ∧ (t.hxd.port n).ctl = 1 ∧
      (t.hxd.port n).st = if p.st = .down ∧ (s.die (64 + n / 16)).st = .live then .training else p.st) ∧
    ports (.salderPortDisable n) { p with ctl := 0, st := .down, custody := [] } ∧
    ports (.salderPortForget n) { p with ctl := 0, st := .down, custody := [], recorded := false, partner := 0 } ∧
    ports (.flitReplay n) { p with replays := p.replays + 1 }) ∧
  (∀ partner, p.st = .training → partner < 4096 →
    (partner ≠ s.hxd.pkgid.toNat → p.recorded = false ∨ p.partner = partner →
      ports (.portTrained n partner false) { p with st := .up, recorded := true, partner := partner }) ∧
    (partner = s.hxd.pkgid.toNat ∨ (p.recorded = true ∧ p.partner ≠ partner) →
      ports (.portTrained n partner false) { p with st := .failed, custody := [] })) ∧
  (p.st ≠ .training → ∀ partner r, exec (.portTrained n partner r) s = .next s) ∧
  (p.st = .up → ports (.portDown n) { p with st := .down, custody := [] }) ∧
  (p.st = .up → ∃ t, exec (.portDown n) s = .next t ∧ ∀ id ∈ p.custody, .pushArrival (.own id) ∈ t.inflight ∨ .gaccArrival (.own id) ∈ t.inflight) ∧
  (∀ e port, ∃ t, exec (.coldReset e port) s = .next t ∧ t.mgmt.st = .starting 1 ∧ t.tc = 0 ∧ t.mem = [] ∧ t.cores = [] ∧ t.dies = [] ∧
    t.stks = [] ∧ t.hxd = Hxd.reset ∧ t.launches = [] ∧ t.reqs = [] ∧ t.engs = [] ∧ t.mgmt.plimit = 12500 ∧ t.mgmt.jnow = [] ∧
    t.mgmt.jprev = m.jnow ∧ t.mgmt.endpoint = e ∧ t.mgmt.fwBytes = m.fwBytes ∧ t.mgmt.minVersion = m.minVersion ∧
    t.mgmt.slot = m.selected % 2 ∧ ∀ i ∈ t.inflight, ∃ c, i = .upwrite c ∨ i = .attest c) ∧
  (∀ i r, 1 ≤ i → i ≤ 8 → m.st = .starting i → ∃ t, exec (.bootStepComplete [] r) s = .next t ∧
    same t ∧ t.mgmt.st = (if i = 8 then .running else .starting (i + 1)) ∧ (i = 3 → t.tc = 0 ∧ t.hxd = Hxd.reset ∧ ∀ d, (t.die d).st = .live ∧ (t.die d).fences = 0 ∧ (t.die d).refused = []) ∧
    (i = 4 → ∀ k, (t.stack k).deadG = []) ∧ (i = 5 → ∀ c n, ((t.cluster c).slice n).mode = .cache) ∧ (i = 7 → ∀ p, (t.hxd.port p).st = .down) ∧
    t.mgmt.jnow.length = m.jnow.length + 2 * (stepUnits i).length) ∧
  (∀ r, m.st = .starting 1 → ∃ t, exec (.bootStepComplete [0] r) s = .next t ∧ same t ∧ t.mgmt.st = .startFail ∧
    t.mgmt.selected = if m.failsOf startKey = 1 then 1 - m.selected % 2 else m.selected) ∧
  (∀ v ok, v < 65536 →
    (n ≤ 101 → ∃ t, exec (.sensorSample n v ok) s = .next t ∧ same t ∧
      look t.mgmt.sensors n = some (BitVec.ofNat 64 (v + 2 ^ 16 * nb ok)) ∧ (ok = false → t.dies = s.dies ∧ t.stks = s.stks) ∧
      (ok = true → (n < 64 → (t.die n).temp = v) ∧ (64 ≤ n → n < 96 → (t.stack (n - 64)).temp = v % 256) ∧
        (96 ≤ n → n < 100 → (t.die (n - 32)).temp = v) ∧ (n = 101 → t.mgmt.power = v))) ∧
    (ok = false ∨ m.md = false → ∃ t, exec (.sensorSample 102 v ok) s = .next t ∧ same t ∧
      look t.mgmt.sensors 102 = some (BitVec.ofNat 64 v) ∧ t.mgmt.limit = m.limit) ∧
    (m.md = true → (v < 4600 ∨ 6000 < v → ∃ t, exec (.sensorSample 102 v true) s = .next t ∧ t.mgmt.st = .tripped) ∧
      (4600 ≤ v → v < 4800 → ∃ t, exec (.sensorSample 102 v true) s = .next t ∧ same t ∧ t.mgmt.limit = 280 * v / 100 - 1000 ∧
        t.mgmt.evhead = m.evhead + 1)) ∧
    (102 < n → exec (.sensorSample n v ok) s = .next s)) ∧
  (s.tc < m.clockTc + 1800000 → exec .clockStep s = .next s) ∧
  (m.clockTc + 1800000 ≤ s.tc → ∃ t, exec .clockStep s = .next t ∧ same t ∧ t.tc = s.tc ∧ ∀ d, d < 64 → let x := s.die d
    let power := (m.powerSum + m.power * (s.tc - m.powerTc)) / (s.tc - m.clockTc)
    let limit := if m.limit = 0 then m.plimit else Nat.min m.plimit m.limit
    (t.die d).mhz = if 100 ≤ x.temp ∨ limit < power then (if x.mhz ≤ 900 then x.mhz else x.mhz - 100)
      else if x.temp < 95 ∧ power < limit ∧ x.mhz < 1800 then x.mhz + 100 else x.mhz) ∧
  (let trips (i : Instr) : Prop := ∃ t, exec i s = .next t ∧ t.mgmt.st = .tripped ∧ t.mgmt.evhead = m.evhead + 1 ∧ t.mem = [] ∧
      t.cores = [] ∧ t.launches = [] ∧ t.hxd = Hxd.reset ∧ t.mgmt.jnow = m.jnow ∧ ∀ i ∈ t.inflight, ∃ c, i = .upwrite c ∨ i = .attest c
   let shown := ((look m.sensors (if n < 64 then n else if n < 68 then n + 32 else if n = 68 then 100 else n - 5)).getD 0).toNat
   (n ≤ 100 → shown / 65536 % 2 = 1 → 115 ≤ shown % 65536 → trips (.thermalTrip n)) ∧
   (n ≤ 100 → shown / 65536 % 2 = 0 ∨ shown % 65536 < 115 → exec (.thermalTrip n) s = .next s) ∧
   (m.md = false → ∀ x, exec (.supplyExcursion x) s = .next s) ∧
   (m.md = true → (n < 4600 ∨ 6000 < n → trips (.supplyExcursion (.voltage n))) ∧
   (4600 ≤ n → n < 4800 → ∃ t, exec (.supplyExcursion (.voltage n)) s = .next t ∧ same t ∧ t.mgmt.limit = 280 * n / 100 - 1000 ∧
     t.mgmt.evhead = m.evhead + 1 ∧ t.mgmt.st = m.st) ∧
   (4800 ≤ n → n ≤ 6000 → ∃ t, exec (.supplyExcursion (.voltage n)) s = .next t ∧ same t ∧ t.mgmt.limit = 0 ∧ t.mgmt.st = m.st ∧
     t.mgmt.evhead = m.evhead + if 5800 < n then 1 else 0) ∧
   (∃ t, exec (.supplyExcursion (.coolant n)) s = .next t ∧ same t ∧ t.mgmt.evhead = m.evhead + 1 ∧ t.mgmt.st = m.st))) ∧
  (∀ c : Bool,
   let cmd := (m.cmdOf c).toNat % 256
   let busy : Prop := (m.cmdOf c).toNat / 256 % 4 = 1
   let first : Prop := (m.cmdOf (!c)).toNat / 256 % 4 ≠ 1 ∨ m.connFirst = c
   let len := (m.cmdOf c).toNat / 2 ^ 32 % 8192
   let data := (m.bufOf c).take len
   let other := 1 - m.slot % 2
   let img := (look m.fwBytes other).getD [] ++ data
   let ends (t : State) (st err : Nat) : Prop := same t ∧ (t.mgmt.cmdOf c).toNat % 2 ^ 24 = cmd + 2 ^ 8 * st + 2 ^ 16 * err ∧
     t.mgmt.cmdOf (!c) = m.cmdOf (!c)
   (busy → first → cmd = 1 → len ≤ 4096 →
     (img.length ≤ 67108864 → ∃ t, exec (.upwrite c) s = .next t ∧ ends t 2 0 ∧ look t.mgmt.fwBytes other = some img) ∧
     (67108864 < img.length → ∃ t, exec (.upwrite c) s = .next t ∧ ends t 3 1 ∧ t.mgmt.fwBytes = m.fwBytes)) ∧
   (∀ v, busy → first → cmd = 2 → let no (ok : Bool) (e : Nat) : Prop := ∃ t, exec (.upcommit c ok v) s = .next t ∧ ends t 3 e ∧
       t.mgmt.selected = m.selected
     no false 2 ∧ (v < m.minVersion → no true 3) ∧ (m.minVersion ≤ v → (m.cmdOf (!c)).toNat % 256 = 1 → no true 4) ∧
     (m.minVersion ≤ v → (m.cmdOf (!c)).toNat % 256 ≠ 1 → ∃ t, exec (.upcommit c true v) s = .next t ∧ ends t 2 0 ∧
       t.mgmt.selected = other ∧ look t.mgmt.fwVersion other = some v)) ∧
   (busy → first → cmd = 3 →
     (data.length = 32 → ∃ t, exec (.attest c) s = .next t ∧ ends t 2 0 ∧ t.mgmt.reports = m.reports + 1 ∧
       t.mgmt.report = some (s.reportOf data)) ∧
     (data.length ≠ 32 → ∃ t, exec (.attest c) s = .next t ∧ ends t 3 5 ∧ t.mgmt.mbox = m.mbox ∧ t.mgmt.connMbox = m.connMbox)) ∧
   (busy → ¬ first → ∀ ok v, exec (.upcommit c ok v) s = .next s ∧
     (cmd = 1 → ∃ t, exec (.upwrite c) s = .next t ∧ same t ∧ t.mgmt = m ∧ .upwrite c ∈ t.inflight) ∧
     (cmd = 3 → ∃ t, exec (.attest c) s = .next t ∧ same t ∧ t.mgmt = m ∧ .attest c ∈ t.inflight)) ∧
   (¬ busy → ∀ ok v, exec (.upwrite c) s = .next s ∧ exec (.upcommit c ok v) s = .next s ∧ exec (.attest c) s = .next s))

/-- 02 R37, 03 R39, R51, 05 R84, 11 R238, 12 R254, 18 R348, R356, 20 R396, 25 R445, 26 R449: what reset leaves where the rules say it, and the
canonical form of every memory. That the package is not yet started is the model's (log 5). -/
def Obligations.ResetState : Prop :=
  let s := State.reset
  MemOk s ∧ s.launches = [] ∧ s.active = [] ∧ s.saved = [] ∧ s.reqs = [] ∧ s.engs = [] ∧
  (∀ c n, ((s.cluster c).slice n).mode = .cache ∧ ((s.cluster c).slice n).fifo = []) ∧
  (∀ n, n ≠ 0 → (s.tag n).st = .free) ∧ (s.tag 0).st = .live ∧ s.hxd.tgaLimit = 4094 ∧ s.hxd.paAging = 0x0100_0000 ∧
  (∀ k, (s.stack k).threshold = 4096 ∧ (s.stack k).alerts = 0 ∧ (s.stack k).buckets = [] ∧ (s.stack k).therm = .normal) ∧
  (∀ d, (s.die d).wdlimit = 0x0001_0000_0000 ∧ (s.die d).wdsave = 0x0010_0000 ∧ (s.die d).monitor = none ∧ (s.die d).monResult = 0 ∧
    (s.die d).st = .live ∧ (s.die d).fences = 0) ∧
  s.hxd.laneH = ⟨0, 0, 0, 0, []⟩ ∧ s.hxd.laneN = ⟨0, 0, 0, 0, []⟩ ∧ s.hxd.auditLog2 = 28 ∧ (∀ n, (s.hxd.port n).st = .down) ∧
  (∀ n, (s.hxd.win n).en = false ∧ (s.hxd.pat n).en = false) ∧ s.mgmt.st = .off ∧ s.mgmt.plimit = 12500

/-- 00 R6, 03 R44 to R47: reading bytes after writing them, little-endian, in memory and in the cells of a tag; every other byte keeps its
value, and each write keeps the canonical form. -/
def Obligations.MemoryLaws : Prop :=
  (∀ (m : Memory) (a n v : Nat), (m.setNat a n v).nat a n = v % 256 ^ n ∧
    (∀ i, i < n → (m.setNat a n v).get (a + i) = BitVec.ofNat 8 (v / 256 ^ i)) ∧
    (∀ b, b < a ∨ a + n ≤ b → (m.setNat a n v).get b = m.get b) ∧ (m.wf = true → (m.setNat a n v).wf = true)) ∧
  ∀ (s : State) (t pa : Nat) (zero : Bool) (bs : List Byte), pa < 2 ^ 42 → pa % 1024 + bs.length ≤ 1024 →
    (t = 0 → ∃ u, s.cellWrite t pa zero bs = .ok u ∧ u.cellRead t pa bs.length zero = bs ∧
      ∀ a, a < pa ∨ pa + bs.length ≤ a → u.mem.get a = s.mem.get a) ∧
    (t ≠ 0 → t ≠ 4095 → (s.tag t).st = .live ∨ (s.tag t).st = .held → (∀ e ∈ (s.stack (paStack pa)).cells, e.2.length = 1024) →
      (∀ u, s.cellWrite t pa zero bs = .ok u → u.cellRead t pa bs.length zero = bs ∧ u.mem = s.mem ∧
        ∀ w q, w ≠ t → q < 2 ^ 42 → u.cell w q = s.cell w q) ∧
      ((s.cell t pa).isSome = true → ∃ u, s.cellWrite t pa zero bs = .ok u) ∧
      ((s.cell t pa) = none → (s.tag t).quota ≠ 0 → (s.stack (paStack pa)).cellsOf t = (s.tag t).quota →
        s.cellWrite t pa zero bs = .error (BitVec.ofNat 32 (2 ^ 27 * paStack pa + 2 ^ 26 + t))))

/-- 06 R109 to R116: words written out field by field from the encoding tables, one or two for each slot, and the instructions they stand
for. -/
def Obligations.DecodedWords : Prop :=
  decodeSlot 0 0b000010_1_0_011_0_00010010001101000101 = some (.jf true 3 0x12345) ∧
  decodeSlot 0 0b001011_0_010_000000_0000000000000111 = some (.waitc 2 7) ∧
  decodeTableWord 32 0b000110_0_0000000001001_000000_000101 = some (.loopReg 9 5) ∧
  decodeSlot 1 0b0000001_000101_0_10000011_01000001_0000000000 = some (.add ⟨⟨.a, 5, false⟩, .reg 3 true, .latch 1⟩) ∧
  decodeSlot 2 0b0011001_001001_1_00000000_111111111111111110 = some (.li ⟨.b, 9, true⟩ (-2)) ∧
  decodeSlot 3 0b00000100_0011_00001100100_0_0000000000001_1000000000010_01010_001_00 =
    some (.vfma ⟨⟨.a, 3, 100, false⟩, .bf16, .rtz, .reg 1 false, .reg 2 true⟩) ∧
  decodeSlot 4 0b01100101_0000_00000000110_0_0000000000010_0000000000000_00000_000_00 = some (.pcnt .b 6 false 2) ∧
  decodeSlot 5 0b000010_000001_000010_0001000_01010_1_0_0_000000_111111_000 = some (.mmal ⟨1, 2, 8, .bf16, true, false, none, 63⟩) ∧
  decodeSlot 5 0b000101_00000000111_1111111_101_01001_00_00000000000000 = some (.ard 7 127 5 (.conv .fp32)) ∧
  decodeSlot 6 0b000001_000100_000101_01_1_0_000000_11111111111111111110 = some (.ld ⟨4, 5, 1, true, false, -2⟩) ∧
  decodeSlot 6 0b001010_1_00000000011_000010_1_00_0_00000000000000001000 = some (.gst ⟨.v 3, 2, true, 0, false, 8⟩) ∧
  decodeSlot 7 0b001010_000000_000001_000010_000000_0011_011_010 = some (.evsig 1 2 (.sub 3 2)) ∧
  decodeSlot 7 0b010000_000011_000001_000010_000000_0000000000 = some (.tagnew 3 1 2) ∧
  decodeSlot 0 0 = none ∧ decodeSlot 0 0b000101_00000000000000000000000001 = none

/-- 06 R106 to R116, R122 to R126: every well-formed slot instruction, with every operand its fields admit, is encoded in the bits of its slot
and decoded there as itself. -/
def Obligations.EncodeDecodeRoundTrip : Prop := ∀ (i : Instr) (n : Nat), slotOf i = some n → i.wf = true →
  encode i < 2 ^ (slotPos n).2 ∧ decodeSlot n (encode i) = some i

/-- 01 R22, 07 R133: every instruction and every step of the package ends in a next state; what runs next, whose order is the model's, as is an
entry of the agenda that is passed over (log 1); TC advances once the cores have had their cycles. -/
def Obligations.StepOutcomes : Prop :=
  (∀ i s, ∃ t, exec i s = .next t) ∧ (∀ s, Goes s) ∧
  (∀ s i rest, s.agenda = i :: rest →
    ((slotOf i).isSome = true ∨ placeOk i = false → step s = .next { s with agenda := rest }) ∧
    (slotOf i = none → placeOk i = true → step s = exec i { s with agenda := rest })) ∧
  (∀ s, s.agenda = [] →
    (∀ i rest, s.turn = true → s.inflight = i :: rest → step s = exec i { s with inflight := rest, turn := false }) ∧
    (s.turn = false ∨ s.inflight = [] → step s = exec .bundleIssue { s with turn := !s.turn })) ∧
  (∀ s, s.active = [] → s.mgmt.tcStill = false → (∀ e ∈ s.saved, e.2.mailDue = false) →
    ∃ t, exec .bundleIssue s = .next t ∧ t.tc = s.tc + 1 ∧ t.mem = s.mem ∧ t.cores = s.cores) ∧
  (∀ s, s.cur ∈ s.active → ∃ t, exec .bundleIssue s = .next t ∧
    t = (({ s with fresh := s.fresh + 1 } : State).coreCycle s.cur).advance)

/-- Every step of the package keeps the canonical form of every memory. -/
def Obligations.MemoryStaysCanonical : Prop := ∀ s t : State, MemOk s → step s = .next t → MemOk t
end

