-- ==== Sys2Proof/Laws/Table.lean ====
section
/-! SUPPORT. Laws/Table.lean: what reading after writing gives in tables and byte memories, and that every write keeps the canonical
form. -/

namespace Sys2Proof.Machine

theorem look_ins_same {α : Type} (t : Tbl α) (k : Nat) (a : α) (h : look t k = none) : look (ins t k a) k = some a := by
  induction t with
  | nil => simp [ins, look]
  | cons e t ih =>
    obtain ⟨j, b⟩ := e
    simp only [look] at h
    split at h
    · cases h
    · unfold ins
      split <;> simp_all [look]

theorem look_ins_other {α : Type} (t : Tbl α) (k j : Nat) (a : α) (h : j ≠ k) : look (ins t k a) j = look t j := by
  induction t with
  | nil => simp [ins, look, Ne.symm h]
  | cons e t ih =>
    obtain ⟨i, b⟩ := e
    unfold ins
    split
    · simp [look, Ne.symm h]
    · simp only [look]; rw [ih]

@[simp] theorem look_del_same {α : Type} (t : Tbl α) (k : Nat) : look (del t k) k = none := by
  induction t with
  | nil => rfl
  | cons e t ih =>
    obtain ⟨i, b⟩ := e
    by_cases hk : i = k <;> simp [del, look, hk, ih]

theorem look_del_other {α : Type} (t : Tbl α) (k j : Nat) (h : j ≠ k) : look (del t k) j = look t j := by
  induction t with
  | nil => rfl
  | cons e t ih =>
    obtain ⟨i, b⟩ := e
    by_cases hk : i = k
    · subst hk; simp [del, look, Ne.symm h, ih]
    · simp [del, look, hk, ih]

/-- Reading the key just written gives the value written. -/
@[simp] theorem look_put_same {α : Type} (t : Tbl α) (k : Nat) (a : α) : look (put t k a) k = some a :=
  look_ins_same _ _ _ (look_del_same t k)

/-- A write leaves every other key alone. -/
theorem look_put_other {α : Type} (t : Tbl α) (k j : Nat) (a : α) (h : j ≠ k) : look (put t k a) j = look t j := by
  rw [put, look_ins_other _ _ _ _ h, look_del_other _ _ _ h]

theorem risesFrom_mono {α : Type} (t : Tbl α) (m n : Nat) (h : m ≤ n) (ht : risesFrom n t = true) : risesFrom m t = true := by
  cases t with
  | nil => rfl
  | cons e t =>
    simp only [risesFrom, Bool.and_eq_true, decide_eq_true_eq] at *
    exact ⟨by omega, ht.2⟩

theorem risesFrom_del {α : Type} (t : Tbl α) (k n : Nat) (ht : risesFrom n t = true) : risesFrom n (del t k) = true := by
  induction t generalizing n with
  | nil => rfl
  | cons e t ih =>
    obtain ⟨i, b⟩ := e
    simp [risesFrom] at ht
    by_cases hk : i = k
    · simp only [del, hk, if_true]; exact risesFrom_mono _ _ (i + 1) (by omega) (ih _ ht.2)
    · simp [del, hk, risesFrom, ht.1, ih _ ht.2]

theorem risesFrom_ins {α : Type} (t : Tbl α) (k n : Nat) (a : α) (ht : risesFrom n t = true) (hn : n ≤ k) (hk : look t k = none) :
    risesFrom n (ins t k a) = true := by
  induction t generalizing n with
  | nil => simp [ins, risesFrom, hn]
  | cons e t ih =>
    obtain ⟨i, b⟩ := e
    simp only [risesFrom, Bool.and_eq_true, decide_eq_true_eq] at ht
    simp only [look] at hk
    split at hk
    · cases hk
    · unfold ins
      split
      · simp only [risesFrom, Bool.and_eq_true, decide_eq_true_eq]
        exact ⟨hn, by omega, ht.2⟩
      · simp only [risesFrom, Bool.and_eq_true, decide_eq_true_eq]
        exact ⟨ht.1, ih _ ht.2 (by omega) hk⟩

/-- A write keeps the keys rising. -/
theorem rises_put {α : Type} (t : Tbl α) (k : Nat) (a : α) (h : rises t = true) : rises (put t k a) = true :=
  risesFrom_ins _ _ _ _ (risesFrom_del _ _ _ h) (Nat.zero_le _) (look_del_same t k)

theorem all_del {α : Type} (t : Tbl α) (k : Nat) (p : Nat × α → Bool) (h : t.all p = true) : (del t k).all p = true := by
  induction t with
  | nil => rfl
  | cons e t ih =>
    obtain ⟨i, b⟩ := e
    simp only [List.all_cons, Bool.and_eq_true] at h
    by_cases hk : i = k
    · simp [del, hk, ih h.2]
    · simp [del, hk, h.1, ih h.2]

theorem all_ins {α : Type} (t : Tbl α) (k : Nat) (a : α) (p : Nat × α → Bool) (h : t.all p = true) (ha : p (k, a) = true) :
    (ins t k a).all p = true := by
  induction t with
  | nil => simp [ins, ha]
  | cons e t ih =>
    obtain ⟨i, b⟩ := e
    simp only [List.all_cons, Bool.and_eq_true] at h
    unfold ins
    split <;> simp [h.1, h.2, ha, ih h.2]

/-- The empty memory has the canonical form. -/
theorem Memory.wf_nil : Memory.wf [] = true := rfl

/-- Keys that rise go on rising when some are left out. -/
theorem risesFrom_filter {α : Type} (t : Tbl α) (p : Nat × α → Bool) (n : Nat) (h : risesFrom n t = true) : risesFrom n (t.filter p) = true := by
  induction t generalizing n with
  | nil => rfl
  | cons e t ih =>
    obtain ⟨j, a⟩ := e
    simp only [risesFrom, Bool.and_eq_true, decide_eq_true_eq] at h
    rw [List.filter_cons]
    split
    · simp only [risesFrom, Bool.and_eq_true, decide_eq_true_eq]
      exact ⟨h.1, ih _ h.2⟩
    · exact risesFrom_mono _ _ _ (by omega) (ih _ h.2)

/-- Leaving entries out keeps the canonical form. -/
theorem Memory.wf_filter (m : Memory) (p : Nat × Byte → Bool) (h : m.wf = true) : Memory.wf (m.filter p) = true := by
  simp only [Memory.wf, Bool.and_eq_true, List.all_eq_true] at h ⊢
  exact ⟨risesFrom_filter m p 0 h.1, fun e he => h.2 e (List.mem_filter.mp he).1⟩

/-- Writing zeros keeps the canonical form. -/
theorem Memory.wf_clear (m : Memory) (a n : Nat) (h : m.wf = true) : (m.clear a n).wf = true := Memory.wf_filter m _ h

/-- Writing one byte keeps the canonical form. -/
theorem Memory.wf_set (m : Memory) (a : Nat) (b : Byte) (h : m.wf = true) : (m.set a b).wf = true := by
  simp only [Memory.wf, Bool.and_eq_true] at *
  unfold Memory.set
  split
  · exact ⟨risesFrom_del _ _ _ h.1, all_del _ _ _ h.2⟩
  · exact ⟨rises_put _ _ _ h.1, all_ins _ _ _ _ (all_del _ _ _ h.2) (by simpa using ‹_›)⟩

/-- Writing bytes keeps the canonical form. -/
theorem Memory.wf_setBytes (m : Memory) (a : Nat) (bs : List Byte) (h : m.wf = true) : (m.setBytes a bs).wf = true := by
  induction bs generalizing m a with
  | nil => exact h
  | cons b bs ih => exact ih _ _ (Memory.wf_set _ _ _ h)

/-- Writing a number keeps the canonical form. -/
theorem Memory.wf_setNat (m : Memory) (a n v : Nat) (h : m.wf = true) : (m.setNat a n v).wf = true :=
  Memory.wf_setBytes _ _ _ h

/-- Reading the byte just written gives it. -/
@[simp] theorem Memory.get_set_same (m : Memory) (a : Nat) (b : Byte) : (m.set a b).get a = b := by
  unfold Memory.set Memory.get
  split
  · simp [*]
  · simp

/-- Writing one byte leaves every other alone. -/
theorem Memory.get_set_other (m : Memory) (a c : Nat) (b : Byte) (h : c ≠ a) : (m.set a b).get c = m.get c := by
  unfold Memory.set Memory.get
  split
  · rw [look_del_other _ _ _ h]
  · rw [look_put_other _ _ _ _ h]

/-- Writing bytes leaves every byte outside them alone. -/
theorem Memory.get_setBytes_other (m : Memory) (a c : Nat) (bs : List Byte) (h : c < a ∨ a + bs.length ≤ c) :
    (m.setBytes a bs).get c = m.get c := by
  induction bs generalizing m a with
  | nil => rfl
  | cons b bs ih =>
    simp only [List.length_cons] at h
    rw [Memory.setBytes, ih _ _ (by omega), Memory.get_set_other _ _ _ _ (by omega)]

/-- Reading a byte just written gives it. -/
theorem Memory.get_setBytes_same (m : Memory) (a i : Nat) (bs : List Byte) (h : i < bs.length) :
    (m.setBytes a bs).get (a + i) = bs.getD i 0 := by
  induction bs generalizing m a i with
  | nil => simp at h
  | cons b bs ih =>
    cases i with
    | zero =>
      rw [Memory.setBytes, Memory.get_setBytes_other _ _ _ _ (by omega)]
      simp
    | succ i =>
      have := ih (m.set a b) (a + 1) i (by simpa using h)
      rw [Memory.setBytes, show a + (i + 1) = a + 1 + i by omega, this]
      simp

/-- The bytes of a value, lowest first, read back as it (00 R6). -/
theorem leNat_toBytes (n v : Nat) : leNat (toBytes n v) = v % 2 ^ (8 * n) := by
  induction n generalizing v with
  | zero => simp [toBytes, leNat, Nat.mod_one]
  | succ n ih =>
    rw [toBytes, leNat, ih]
    have h : (2 : Nat) ^ (8 * (n + 1)) = 256 * 2 ^ (8 * n) := by rw [show 8 * (n + 1) = 8 + 8 * n by omega, Nat.pow_add]
    rw [h, Nat.mod_mul]
    simp [BitVec.toNat_ofNat]

@[simp] theorem toBytes_length (n v : Nat) : (toBytes n v).length = n := by
  induction n generalizing v with
  | zero => rfl
  | succ n ih => simp [toBytes, ih]

/-- What a list holds once a value has been added. -/
theorem mem_addNew {α : Type} [DecidableEq α] (l : List α) (a b : α) : b ∈ addNew l a ↔ b ∈ l ∨ b = a := by
  unfold addNew
  split
  · constructor
    · exact Or.inl
    · rintro (h | rfl)
      · exact h
      · exact List.contains_iff_mem.mp ‹_›
  · simp

end Sys2Proof.Machine
end

