-- ==== Sys2Proof/Laws/State.lean ====
section
/-! SUPPORT. Laws/State.lean: what each update of the state leaves in each field, so that no proof unfolds a record update; and what
reading a core, die, stack or cluster gives after one was written. -/

namespace Sys2Proof.Machine

/-! Fields after `State.setCore`. -/

@[simp] theorem State.setCore_agenda (s : State) (c : Nat) (k : Core) : (s.setCore c k).agenda = s.agenda := rfl
@[simp] theorem State.setCore_inflight (s : State) (c : Nat) (k : Core) : (s.setCore c k).inflight = s.inflight := rfl
@[simp] theorem State.setCore_turn (s : State) (c : Nat) (k : Core) : (s.setCore c k).turn = s.turn := rfl
@[simp] theorem State.setCore_cur (s : State) (c : Nat) (k : Core) : (s.setCore c k).cur = s.cur := rfl
@[simp] theorem State.setCore_active (s : State) (c : Nat) (k : Core) : (s.setCore c k).active = s.active := rfl
@[simp] theorem State.setCore_fresh (s : State) (c : Nat) (k : Core) : (s.setCore c k).fresh = s.fresh := rfl
@[simp] theorem State.setCore_tc (s : State) (c : Nat) (k : Core) : (s.setCore c k).tc = s.tc := rfl
@[simp] theorem State.setCore_cores (s : State) (c : Nat) (k : Core) : (s.setCore c k).cores = put s.cores c k := rfl
@[simp] theorem State.setCore_followers (s : State) (c : Nat) (k : Core) : (s.setCore c k).followers = s.followers := rfl
@[simp] theorem State.setCore_saved (s : State) (c : Nat) (k : Core) : (s.setCore c k).saved = s.saved := rfl
@[simp] theorem State.setCore_clusters (s : State) (c : Nat) (k : Core) : (s.setCore c k).clusters = s.clusters := rfl
@[simp] theorem State.setCore_dies (s : State) (c : Nat) (k : Core) : (s.setCore c k).dies = s.dies := rfl
@[simp] theorem State.setCore_stks (s : State) (c : Nat) (k : Core) : (s.setCore c k).stks = s.stks := rfl
@[simp] theorem State.setCore_hxd (s : State) (c : Nat) (k : Core) : (s.setCore c k).hxd = s.hxd := rfl
@[simp] theorem State.setCore_mgmt (s : State) (c : Nat) (k : Core) : (s.setCore c k).mgmt = s.mgmt := rfl
@[simp] theorem State.setCore_mem (s : State) (c : Nat) (k : Core) : (s.setCore c k).mem = s.mem := rfl
@[simp] theorem State.setCore_codes (s : State) (c : Nat) (k : Core) : (s.setCore c k).codes = s.codes := rfl
@[simp] theorem State.setCore_nextCode (s : State) (c : Nat) (k : Core) : (s.setCore c k).nextCode = s.nextCode := rfl
@[simp] theorem State.setCore_launches (s : State) (c : Nat) (k : Core) : (s.setCore c k).launches = s.launches := rfl
@[simp] theorem State.setCore_nextRid (s : State) (c : Nat) (k : Core) : (s.setCore c k).nextRid = s.nextRid := rfl
@[simp] theorem State.setCore_reqs (s : State) (c : Nat) (k : Core) : (s.setCore c k).reqs = s.reqs := rfl
@[simp] theorem State.setCore_engs (s : State) (c : Nat) (k : Core) : (s.setCore c k).engs = s.engs := rfl
@[simp] theorem State.setCore_nextId (s : State) (c : Nat) (k : Core) : (s.setCore c k).nextId = s.nextId := rfl
@[simp] theorem State.setCore_iommu (s : State) (c : Nat) (k : Core) : (s.setCore c k).iommu = s.iommu := rfl
@[simp] theorem State.setCore_roots (s : State) (c : Nat) (k : Core) : (s.setCore c k).roots = s.roots := rfl
@[simp] theorem State.setCore_xcache (s : State) (c : Nat) (k : Core) : (s.setCore c k).xcache = s.xcache := rfl
@[simp] theorem State.setCore_invalidated (s : State) (c : Nat) (k : Core) : (s.setCore c k).invalidated = s.invalidated := rfl
@[simp] theorem State.setCore_answer (s : State) (c : Nat) (k : Core) : (s.setCore c k).answer = s.answer := rfl

/-! Fields after `State.upCore`. -/

@[simp] theorem State.upCore_agenda (s : State) (c : Nat) (f : Core → Core) : (s.upCore c f).agenda = s.agenda := rfl
@[simp] theorem State.upCore_inflight (s : State) (c : Nat) (f : Core → Core) : (s.upCore c f).inflight = s.inflight := rfl
@[simp] theorem State.upCore_turn (s : State) (c : Nat) (f : Core → Core) : (s.upCore c f).turn = s.turn := rfl
@[simp] theorem State.upCore_cur (s : State) (c : Nat) (f : Core → Core) : (s.upCore c f).cur = s.cur := rfl
@[simp] theorem State.upCore_active (s : State) (c : Nat) (f : Core → Core) : (s.upCore c f).active = s.active := rfl
@[simp] theorem State.upCore_fresh (s : State) (c : Nat) (f : Core → Core) : (s.upCore c f).fresh = s.fresh := rfl
@[simp] theorem State.upCore_tc (s : State) (c : Nat) (f : Core → Core) : (s.upCore c f).tc = s.tc := rfl
@[simp] theorem State.upCore_cores (s : State) (c : Nat) (f : Core → Core) : (s.upCore c f).cores = put s.cores c (f (s.core c)) := rfl
@[simp] theorem State.upCore_followers (s : State) (c : Nat) (f : Core → Core) : (s.upCore c f).followers = s.followers := rfl
@[simp] theorem State.upCore_saved (s : State) (c : Nat) (f : Core → Core) : (s.upCore c f).saved = s.saved := rfl
@[simp] theorem State.upCore_clusters (s : State) (c : Nat) (f : Core → Core) : (s.upCore c f).clusters = s.clusters := rfl
@[simp] theorem State.upCore_dies (s : State) (c : Nat) (f : Core → Core) : (s.upCore c f).dies = s.dies := rfl
@[simp] theorem State.upCore_stks (s : State) (c : Nat) (f : Core → Core) : (s.upCore c f).stks = s.stks := rfl
@[simp] theorem State.upCore_hxd (s : State) (c : Nat) (f : Core → Core) : (s.upCore c f).hxd = s.hxd := rfl
@[simp] theorem State.upCore_mgmt (s : State) (c : Nat) (f : Core → Core) : (s.upCore c f).mgmt = s.mgmt := rfl
@[simp] theorem State.upCore_mem (s : State) (c : Nat) (f : Core → Core) : (s.upCore c f).mem = s.mem := rfl
@[simp] theorem State.upCore_codes (s : State) (c : Nat) (f : Core → Core) : (s.upCore c f).codes = s.codes := rfl
@[simp] theorem State.upCore_nextCode (s : State) (c : Nat) (f : Core → Core) : (s.upCore c f).nextCode = s.nextCode := rfl
@[simp] theorem State.upCore_launches (s : State) (c : Nat) (f : Core → Core) : (s.upCore c f).launches = s.launches := rfl
@[simp] theorem State.upCore_nextRid (s : State) (c : Nat) (f : Core → Core) : (s.upCore c f).nextRid = s.nextRid := rfl
@[simp] theorem State.upCore_reqs (s : State) (c : Nat) (f : Core → Core) : (s.upCore c f).reqs = s.reqs := rfl
@[simp] theorem State.upCore_engs (s : State) (c : Nat) (f : Core → Core) : (s.upCore c f).engs = s.engs := rfl
@[simp] theorem State.upCore_nextId (s : State) (c : Nat) (f : Core → Core) : (s.upCore c f).nextId = s.nextId := rfl
@[simp] theorem State.upCore_iommu (s : State) (c : Nat) (f : Core → Core) : (s.upCore c f).iommu = s.iommu := rfl
@[simp] theorem State.upCore_roots (s : State) (c : Nat) (f : Core → Core) : (s.upCore c f).roots = s.roots := rfl
@[simp] theorem State.upCore_xcache (s : State) (c : Nat) (f : Core → Core) : (s.upCore c f).xcache = s.xcache := rfl
@[simp] theorem State.upCore_invalidated (s : State) (c : Nat) (f : Core → Core) : (s.upCore c f).invalidated = s.invalidated := rfl
@[simp] theorem State.upCore_answer (s : State) (c : Nat) (f : Core → Core) : (s.upCore c f).answer = s.answer := rfl

/-! Fields after `State.setMe`. -/

@[simp] theorem State.setMe_agenda (s : State) (k : Core) : (s.setMe k).agenda = s.agenda := rfl
@[simp] theorem State.setMe_inflight (s : State) (k : Core) : (s.setMe k).inflight = s.inflight := rfl
@[simp] theorem State.setMe_turn (s : State) (k : Core) : (s.setMe k).turn = s.turn := rfl
@[simp] theorem State.setMe_cur (s : State) (k : Core) : (s.setMe k).cur = s.cur := rfl
@[simp] theorem State.setMe_active (s : State) (k : Core) : (s.setMe k).active = s.active := rfl
@[simp] theorem State.setMe_fresh (s : State) (k : Core) : (s.setMe k).fresh = s.fresh := rfl
@[simp] theorem State.setMe_tc (s : State) (k : Core) : (s.setMe k).tc = s.tc := rfl
@[simp] theorem State.setMe_cores (s : State) (k : Core) : (s.setMe k).cores = put s.cores s.cur k := rfl
@[simp] theorem State.setMe_followers (s : State) (k : Core) : (s.setMe k).followers = s.followers := rfl
@[simp] theorem State.setMe_saved (s : State) (k : Core) : (s.setMe k).saved = s.saved := rfl
@[simp] theorem State.setMe_clusters (s : State) (k : Core) : (s.setMe k).clusters = s.clusters := rfl
@[simp] theorem State.setMe_dies (s : State) (k : Core) : (s.setMe k).dies = s.dies := rfl
@[simp] theorem State.setMe_stks (s : State) (k : Core) : (s.setMe k).stks = s.stks := rfl
@[simp] theorem State.setMe_hxd (s : State) (k : Core) : (s.setMe k).hxd = s.hxd := rfl
@[simp] theorem State.setMe_mgmt (s : State) (k : Core) : (s.setMe k).mgmt = s.mgmt := rfl
@[simp] theorem State.setMe_mem (s : State) (k : Core) : (s.setMe k).mem = s.mem := rfl
@[simp] theorem State.setMe_codes (s : State) (k : Core) : (s.setMe k).codes = s.codes := rfl
@[simp] theorem State.setMe_nextCode (s : State) (k : Core) : (s.setMe k).nextCode = s.nextCode := rfl
@[simp] theorem State.setMe_launches (s : State) (k : Core) : (s.setMe k).launches = s.launches := rfl
@[simp] theorem State.setMe_nextRid (s : State) (k : Core) : (s.setMe k).nextRid = s.nextRid := rfl
@[simp] theorem State.setMe_reqs (s : State) (k : Core) : (s.setMe k).reqs = s.reqs := rfl
@[simp] theorem State.setMe_engs (s : State) (k : Core) : (s.setMe k).engs = s.engs := rfl
@[simp] theorem State.setMe_nextId (s : State) (k : Core) : (s.setMe k).nextId = s.nextId := rfl
@[simp] theorem State.setMe_iommu (s : State) (k : Core) : (s.setMe k).iommu = s.iommu := rfl
@[simp] theorem State.setMe_roots (s : State) (k : Core) : (s.setMe k).roots = s.roots := rfl
@[simp] theorem State.setMe_xcache (s : State) (k : Core) : (s.setMe k).xcache = s.xcache := rfl
@[simp] theorem State.setMe_invalidated (s : State) (k : Core) : (s.setMe k).invalidated = s.invalidated := rfl
@[simp] theorem State.setMe_answer (s : State) (k : Core) : (s.setMe k).answer = s.answer := rfl

/-! Fields after `State.upMe`. -/

@[simp] theorem State.upMe_agenda (s : State) (f : Core → Core) : (s.upMe f).agenda = s.agenda := rfl
@[simp] theorem State.upMe_inflight (s : State) (f : Core → Core) : (s.upMe f).inflight = s.inflight := rfl
@[simp] theorem State.upMe_turn (s : State) (f : Core → Core) : (s.upMe f).turn = s.turn := rfl
@[simp] theorem State.upMe_cur (s : State) (f : Core → Core) : (s.upMe f).cur = s.cur := rfl
@[simp] theorem State.upMe_active (s : State) (f : Core → Core) : (s.upMe f).active = s.active := rfl
@[simp] theorem State.upMe_fresh (s : State) (f : Core → Core) : (s.upMe f).fresh = s.fresh := rfl
@[simp] theorem State.upMe_tc (s : State) (f : Core → Core) : (s.upMe f).tc = s.tc := rfl
@[simp] theorem State.upMe_cores (s : State) (f : Core → Core) : (s.upMe f).cores = put s.cores s.cur (f s.me) := rfl
@[simp] theorem State.upMe_followers (s : State) (f : Core → Core) : (s.upMe f).followers = s.followers := rfl
@[simp] theorem State.upMe_saved (s : State) (f : Core → Core) : (s.upMe f).saved = s.saved := rfl
@[simp] theorem State.upMe_clusters (s : State) (f : Core → Core) : (s.upMe f).clusters = s.clusters := rfl
@[simp] theorem State.upMe_dies (s : State) (f : Core → Core) : (s.upMe f).dies = s.dies := rfl
@[simp] theorem State.upMe_stks (s : State) (f : Core → Core) : (s.upMe f).stks = s.stks := rfl
@[simp] theorem State.upMe_hxd (s : State) (f : Core → Core) : (s.upMe f).hxd = s.hxd := rfl
@[simp] theorem State.upMe_mgmt (s : State) (f : Core → Core) : (s.upMe f).mgmt = s.mgmt := rfl
@[simp] theorem State.upMe_mem (s : State) (f : Core → Core) : (s.upMe f).mem = s.mem := rfl
@[simp] theorem State.upMe_codes (s : State) (f : Core → Core) : (s.upMe f).codes = s.codes := rfl
@[simp] theorem State.upMe_nextCode (s : State) (f : Core → Core) : (s.upMe f).nextCode = s.nextCode := rfl
@[simp] theorem State.upMe_launches (s : State) (f : Core → Core) : (s.upMe f).launches = s.launches := rfl
@[simp] theorem State.upMe_nextRid (s : State) (f : Core → Core) : (s.upMe f).nextRid = s.nextRid := rfl
@[simp] theorem State.upMe_reqs (s : State) (f : Core → Core) : (s.upMe f).reqs = s.reqs := rfl
@[simp] theorem State.upMe_engs (s : State) (f : Core → Core) : (s.upMe f).engs = s.engs := rfl
@[simp] theorem State.upMe_nextId (s : State) (f : Core → Core) : (s.upMe f).nextId = s.nextId := rfl
@[simp] theorem State.upMe_iommu (s : State) (f : Core → Core) : (s.upMe f).iommu = s.iommu := rfl
@[simp] theorem State.upMe_roots (s : State) (f : Core → Core) : (s.upMe f).roots = s.roots := rfl
@[simp] theorem State.upMe_xcache (s : State) (f : Core → Core) : (s.upMe f).xcache = s.xcache := rfl
@[simp] theorem State.upMe_invalidated (s : State) (f : Core → Core) : (s.upMe f).invalidated = s.invalidated := rfl
@[simp] theorem State.upMe_answer (s : State) (f : Core → Core) : (s.upMe f).answer = s.answer := rfl

/-! Fields after `State.setCluster`. -/

@[simp] theorem State.setCluster_agenda (s : State) (n : Nat) (x : Cluster) : (s.setCluster n x).agenda = s.agenda := rfl
@[simp] theorem State.setCluster_inflight (s : State) (n : Nat) (x : Cluster) : (s.setCluster n x).inflight = s.inflight := rfl
@[simp] theorem State.setCluster_turn (s : State) (n : Nat) (x : Cluster) : (s.setCluster n x).turn = s.turn := rfl
@[simp] theorem State.setCluster_cur (s : State) (n : Nat) (x : Cluster) : (s.setCluster n x).cur = s.cur := rfl
@[simp] theorem State.setCluster_active (s : State) (n : Nat) (x : Cluster) : (s.setCluster n x).active = s.active := rfl
@[simp] theorem State.setCluster_fresh (s : State) (n : Nat) (x : Cluster) : (s.setCluster n x).fresh = s.fresh := rfl
@[simp] theorem State.setCluster_tc (s : State) (n : Nat) (x : Cluster) : (s.setCluster n x).tc = s.tc := rfl
@[simp] theorem State.setCluster_cores (s : State) (n : Nat) (x : Cluster) : (s.setCluster n x).cores = s.cores := rfl
@[simp] theorem State.setCluster_followers (s : State) (n : Nat) (x : Cluster) : (s.setCluster n x).followers = s.followers := rfl
@[simp] theorem State.setCluster_saved (s : State) (n : Nat) (x : Cluster) : (s.setCluster n x).saved = s.saved := rfl
@[simp] theorem State.setCluster_clusters (s : State) (n : Nat) (x : Cluster) : (s.setCluster n x).clusters = put s.clusters n x := rfl
@[simp] theorem State.setCluster_dies (s : State) (n : Nat) (x : Cluster) : (s.setCluster n x).dies = s.dies := rfl
@[simp] theorem State.setCluster_stks (s : State) (n : Nat) (x : Cluster) : (s.setCluster n x).stks = s.stks := rfl
@[simp] theorem State.setCluster_hxd (s : State) (n : Nat) (x : Cluster) : (s.setCluster n x).hxd = s.hxd := rfl
@[simp] theorem State.setCluster_mgmt (s : State) (n : Nat) (x : Cluster) : (s.setCluster n x).mgmt = s.mgmt := rfl
@[simp] theorem State.setCluster_mem (s : State) (n : Nat) (x : Cluster) : (s.setCluster n x).mem = s.mem := rfl
@[simp] theorem State.setCluster_codes (s : State) (n : Nat) (x : Cluster) : (s.setCluster n x).codes = s.codes := rfl
@[simp] theorem State.setCluster_nextCode (s : State) (n : Nat) (x : Cluster) : (s.setCluster n x).nextCode = s.nextCode := rfl
@[simp] theorem State.setCluster_launches (s : State) (n : Nat) (x : Cluster) : (s.setCluster n x).launches = s.launches := rfl
@[simp] theorem State.setCluster_nextRid (s : State) (n : Nat) (x : Cluster) : (s.setCluster n x).nextRid = s.nextRid := rfl
@[simp] theorem State.setCluster_reqs (s : State) (n : Nat) (x : Cluster) : (s.setCluster n x).reqs = s.reqs := rfl
@[simp] theorem State.setCluster_engs (s : State) (n : Nat) (x : Cluster) : (s.setCluster n x).engs = s.engs := rfl
@[simp] theorem State.setCluster_nextId (s : State) (n : Nat) (x : Cluster) : (s.setCluster n x).nextId = s.nextId := rfl
@[simp] theorem State.setCluster_iommu (s : State) (n : Nat) (x : Cluster) : (s.setCluster n x).iommu = s.iommu := rfl
@[simp] theorem State.setCluster_roots (s : State) (n : Nat) (x : Cluster) : (s.setCluster n x).roots = s.roots := rfl
@[simp] theorem State.setCluster_xcache (s : State) (n : Nat) (x : Cluster) : (s.setCluster n x).xcache = s.xcache := rfl
@[simp] theorem State.setCluster_invalidated (s : State) (n : Nat) (x : Cluster) : (s.setCluster n x).invalidated = s.invalidated := rfl
@[simp] theorem State.setCluster_answer (s : State) (n : Nat) (x : Cluster) : (s.setCluster n x).answer = s.answer := rfl

/-! Fields after `State.setDie`. -/

@[simp] theorem State.setDie_agenda (s : State) (d : Nat) (x : Die) : (s.setDie d x).agenda = s.agenda := rfl
@[simp] theorem State.setDie_inflight (s : State) (d : Nat) (x : Die) : (s.setDie d x).inflight = s.inflight := rfl
@[simp] theorem State.setDie_turn (s : State) (d : Nat) (x : Die) : (s.setDie d x).turn = s.turn := rfl
@[simp] theorem State.setDie_cur (s : State) (d : Nat) (x : Die) : (s.setDie d x).cur = s.cur := rfl
@[simp] theorem State.setDie_active (s : State) (d : Nat) (x : Die) : (s.setDie d x).active = s.active := rfl
@[simp] theorem State.setDie_fresh (s : State) (d : Nat) (x : Die) : (s.setDie d x).fresh = s.fresh := rfl
@[simp] theorem State.setDie_tc (s : State) (d : Nat) (x : Die) : (s.setDie d x).tc = s.tc := rfl
@[simp] theorem State.setDie_cores (s : State) (d : Nat) (x : Die) : (s.setDie d x).cores = s.cores := rfl
@[simp] theorem State.setDie_followers (s : State) (d : Nat) (x : Die) : (s.setDie d x).followers = s.followers := rfl
@[simp] theorem State.setDie_saved (s : State) (d : Nat) (x : Die) : (s.setDie d x).saved = s.saved := rfl
@[simp] theorem State.setDie_clusters (s : State) (d : Nat) (x : Die) : (s.setDie d x).clusters = s.clusters := rfl
@[simp] theorem State.setDie_dies (s : State) (d : Nat) (x : Die) : (s.setDie d x).dies = put s.dies d x := rfl
@[simp] theorem State.setDie_stks (s : State) (d : Nat) (x : Die) : (s.setDie d x).stks = s.stks := rfl
@[simp] theorem State.setDie_hxd (s : State) (d : Nat) (x : Die) : (s.setDie d x).hxd = s.hxd := rfl
@[simp] theorem State.setDie_mgmt (s : State) (d : Nat) (x : Die) : (s.setDie d x).mgmt = s.mgmt := rfl
@[simp] theorem State.setDie_mem (s : State) (d : Nat) (x : Die) : (s.setDie d x).mem = s.mem := rfl
@[simp] theorem State.setDie_codes (s : State) (d : Nat) (x : Die) : (s.setDie d x).codes = s.codes := rfl
@[simp] theorem State.setDie_nextCode (s : State) (d : Nat) (x : Die) : (s.setDie d x).nextCode = s.nextCode := rfl
@[simp] theorem State.setDie_launches (s : State) (d : Nat) (x : Die) : (s.setDie d x).launches = s.launches := rfl
@[simp] theorem State.setDie_nextRid (s : State) (d : Nat) (x : Die) : (s.setDie d x).nextRid = s.nextRid := rfl
@[simp] theorem State.setDie_reqs (s : State) (d : Nat) (x : Die) : (s.setDie d x).reqs = s.reqs := rfl
@[simp] theorem State.setDie_engs (s : State) (d : Nat) (x : Die) : (s.setDie d x).engs = s.engs := rfl
@[simp] theorem State.setDie_nextId (s : State) (d : Nat) (x : Die) : (s.setDie d x).nextId = s.nextId := rfl
@[simp] theorem State.setDie_iommu (s : State) (d : Nat) (x : Die) : (s.setDie d x).iommu = s.iommu := rfl
@[simp] theorem State.setDie_roots (s : State) (d : Nat) (x : Die) : (s.setDie d x).roots = s.roots := rfl
@[simp] theorem State.setDie_xcache (s : State) (d : Nat) (x : Die) : (s.setDie d x).xcache = s.xcache := rfl
@[simp] theorem State.setDie_invalidated (s : State) (d : Nat) (x : Die) : (s.setDie d x).invalidated = s.invalidated := rfl
@[simp] theorem State.setDie_answer (s : State) (d : Nat) (x : Die) : (s.setDie d x).answer = s.answer := rfl

/-! Fields after `State.upDie`. -/

@[simp] theorem State.upDie_agenda (s : State) (d : Nat) (f : Die → Die) : (s.upDie d f).agenda = s.agenda := rfl
@[simp] theorem State.upDie_inflight (s : State) (d : Nat) (f : Die → Die) : (s.upDie d f).inflight = s.inflight := rfl
@[simp] theorem State.upDie_turn (s : State) (d : Nat) (f : Die → Die) : (s.upDie d f).turn = s.turn := rfl
@[simp] theorem State.upDie_cur (s : State) (d : Nat) (f : Die → Die) : (s.upDie d f).cur = s.cur := rfl
@[simp] theorem State.upDie_active (s : State) (d : Nat) (f : Die → Die) : (s.upDie d f).active = s.active := rfl
@[simp] theorem State.upDie_fresh (s : State) (d : Nat) (f : Die → Die) : (s.upDie d f).fresh = s.fresh := rfl
@[simp] theorem State.upDie_tc (s : State) (d : Nat) (f : Die → Die) : (s.upDie d f).tc = s.tc := rfl
@[simp] theorem State.upDie_cores (s : State) (d : Nat) (f : Die → Die) : (s.upDie d f).cores = s.cores := rfl
@[simp] theorem State.upDie_followers (s : State) (d : Nat) (f : Die → Die) : (s.upDie d f).followers = s.followers := rfl
@[simp] theorem State.upDie_saved (s : State) (d : Nat) (f : Die → Die) : (s.upDie d f).saved = s.saved := rfl
@[simp] theorem State.upDie_clusters (s : State) (d : Nat) (f : Die → Die) : (s.upDie d f).clusters = s.clusters := rfl
@[simp] theorem State.upDie_dies (s : State) (d : Nat) (f : Die → Die) : (s.upDie d f).dies = put s.dies d (f (s.die d)) := rfl
@[simp] theorem State.upDie_stks (s : State) (d : Nat) (f : Die → Die) : (s.upDie d f).stks = s.stks := rfl
@[simp] theorem State.upDie_hxd (s : State) (d : Nat) (f : Die → Die) : (s.upDie d f).hxd = s.hxd := rfl
@[simp] theorem State.upDie_mgmt (s : State) (d : Nat) (f : Die → Die) : (s.upDie d f).mgmt = s.mgmt := rfl
@[simp] theorem State.upDie_mem (s : State) (d : Nat) (f : Die → Die) : (s.upDie d f).mem = s.mem := rfl
@[simp] theorem State.upDie_codes (s : State) (d : Nat) (f : Die → Die) : (s.upDie d f).codes = s.codes := rfl
@[simp] theorem State.upDie_nextCode (s : State) (d : Nat) (f : Die → Die) : (s.upDie d f).nextCode = s.nextCode := rfl
@[simp] theorem State.upDie_launches (s : State) (d : Nat) (f : Die → Die) : (s.upDie d f).launches = s.launches := rfl
@[simp] theorem State.upDie_nextRid (s : State) (d : Nat) (f : Die → Die) : (s.upDie d f).nextRid = s.nextRid := rfl
@[simp] theorem State.upDie_reqs (s : State) (d : Nat) (f : Die → Die) : (s.upDie d f).reqs = s.reqs := rfl
@[simp] theorem State.upDie_engs (s : State) (d : Nat) (f : Die → Die) : (s.upDie d f).engs = s.engs := rfl
@[simp] theorem State.upDie_nextId (s : State) (d : Nat) (f : Die → Die) : (s.upDie d f).nextId = s.nextId := rfl
@[simp] theorem State.upDie_iommu (s : State) (d : Nat) (f : Die → Die) : (s.upDie d f).iommu = s.iommu := rfl
@[simp] theorem State.upDie_roots (s : State) (d : Nat) (f : Die → Die) : (s.upDie d f).roots = s.roots := rfl
@[simp] theorem State.upDie_xcache (s : State) (d : Nat) (f : Die → Die) : (s.upDie d f).xcache = s.xcache := rfl
@[simp] theorem State.upDie_invalidated (s : State) (d : Nat) (f : Die → Die) : (s.upDie d f).invalidated = s.invalidated := rfl
@[simp] theorem State.upDie_answer (s : State) (d : Nat) (f : Die → Die) : (s.upDie d f).answer = s.answer := rfl

/-! Fields after `State.setStack`. -/

@[simp] theorem State.setStack_agenda (s : State) (n : Nat) (x : Stack) : (s.setStack n x).agenda = s.agenda := rfl
@[simp] theorem State.setStack_inflight (s : State) (n : Nat) (x : Stack) : (s.setStack n x).inflight = s.inflight := rfl
@[simp] theorem State.setStack_turn (s : State) (n : Nat) (x : Stack) : (s.setStack n x).turn = s.turn := rfl
@[simp] theorem State.setStack_cur (s : State) (n : Nat) (x : Stack) : (s.setStack n x).cur = s.cur := rfl
@[simp] theorem State.setStack_active (s : State) (n : Nat) (x : Stack) : (s.setStack n x).active = s.active := rfl
@[simp] theorem State.setStack_fresh (s : State) (n : Nat) (x : Stack) : (s.setStack n x).fresh = s.fresh := rfl
@[simp] theorem State.setStack_tc (s : State) (n : Nat) (x : Stack) : (s.setStack n x).tc = s.tc := rfl
@[simp] theorem State.setStack_cores (s : State) (n : Nat) (x : Stack) : (s.setStack n x).cores = s.cores := rfl
@[simp] theorem State.setStack_followers (s : State) (n : Nat) (x : Stack) : (s.setStack n x).followers = s.followers := rfl
@[simp] theorem State.setStack_saved (s : State) (n : Nat) (x : Stack) : (s.setStack n x).saved = s.saved := rfl
@[simp] theorem State.setStack_clusters (s : State) (n : Nat) (x : Stack) : (s.setStack n x).clusters = s.clusters := rfl
@[simp] theorem State.setStack_dies (s : State) (n : Nat) (x : Stack) : (s.setStack n x).dies = s.dies := rfl
@[simp] theorem State.setStack_stks (s : State) (n : Nat) (x : Stack) : (s.setStack n x).stks = put s.stks n x := rfl
@[simp] theorem State.setStack_hxd (s : State) (n : Nat) (x : Stack) : (s.setStack n x).hxd = s.hxd := rfl
@[simp] theorem State.setStack_mgmt (s : State) (n : Nat) (x : Stack) : (s.setStack n x).mgmt = s.mgmt := rfl
@[simp] theorem State.setStack_mem (s : State) (n : Nat) (x : Stack) : (s.setStack n x).mem = s.mem := rfl
@[simp] theorem State.setStack_codes (s : State) (n : Nat) (x : Stack) : (s.setStack n x).codes = s.codes := rfl
@[simp] theorem State.setStack_nextCode (s : State) (n : Nat) (x : Stack) : (s.setStack n x).nextCode = s.nextCode := rfl
@[simp] theorem State.setStack_launches (s : State) (n : Nat) (x : Stack) : (s.setStack n x).launches = s.launches := rfl
@[simp] theorem State.setStack_nextRid (s : State) (n : Nat) (x : Stack) : (s.setStack n x).nextRid = s.nextRid := rfl
@[simp] theorem State.setStack_reqs (s : State) (n : Nat) (x : Stack) : (s.setStack n x).reqs = s.reqs := rfl
@[simp] theorem State.setStack_engs (s : State) (n : Nat) (x : Stack) : (s.setStack n x).engs = s.engs := rfl
@[simp] theorem State.setStack_nextId (s : State) (n : Nat) (x : Stack) : (s.setStack n x).nextId = s.nextId := rfl
@[simp] theorem State.setStack_iommu (s : State) (n : Nat) (x : Stack) : (s.setStack n x).iommu = s.iommu := rfl
@[simp] theorem State.setStack_roots (s : State) (n : Nat) (x : Stack) : (s.setStack n x).roots = s.roots := rfl
@[simp] theorem State.setStack_xcache (s : State) (n : Nat) (x : Stack) : (s.setStack n x).xcache = s.xcache := rfl
@[simp] theorem State.setStack_invalidated (s : State) (n : Nat) (x : Stack) : (s.setStack n x).invalidated = s.invalidated := rfl
@[simp] theorem State.setStack_answer (s : State) (n : Nat) (x : Stack) : (s.setStack n x).answer = s.answer := rfl

/-! Fields after `State.upStack`. -/

@[simp] theorem State.upStack_agenda (s : State) (n : Nat) (f : Stack → Stack) : (s.upStack n f).agenda = s.agenda := rfl
@[simp] theorem State.upStack_inflight (s : State) (n : Nat) (f : Stack → Stack) : (s.upStack n f).inflight = s.inflight := rfl
@[simp] theorem State.upStack_turn (s : State) (n : Nat) (f : Stack → Stack) : (s.upStack n f).turn = s.turn := rfl
@[simp] theorem State.upStack_cur (s : State) (n : Nat) (f : Stack → Stack) : (s.upStack n f).cur = s.cur := rfl
@[simp] theorem State.upStack_active (s : State) (n : Nat) (f : Stack → Stack) : (s.upStack n f).active = s.active := rfl
@[simp] theorem State.upStack_fresh (s : State) (n : Nat) (f : Stack → Stack) : (s.upStack n f).fresh = s.fresh := rfl
@[simp] theorem State.upStack_tc (s : State) (n : Nat) (f : Stack → Stack) : (s.upStack n f).tc = s.tc := rfl
@[simp] theorem State.upStack_cores (s : State) (n : Nat) (f : Stack → Stack) : (s.upStack n f).cores = s.cores := rfl
@[simp] theorem State.upStack_followers (s : State) (n : Nat) (f : Stack → Stack) : (s.upStack n f).followers = s.followers := rfl
@[simp] theorem State.upStack_saved (s : State) (n : Nat) (f : Stack → Stack) : (s.upStack n f).saved = s.saved := rfl
@[simp] theorem State.upStack_clusters (s : State) (n : Nat) (f : Stack → Stack) : (s.upStack n f).clusters = s.clusters := rfl
@[simp] theorem State.upStack_dies (s : State) (n : Nat) (f : Stack → Stack) : (s.upStack n f).dies = s.dies := rfl
@[simp] theorem State.upStack_stks (s : State) (n : Nat) (f : Stack → Stack) : (s.upStack n f).stks = put s.stks n (f (s.stack n)) := rfl
@[simp] theorem State.upStack_hxd (s : State) (n : Nat) (f : Stack → Stack) : (s.upStack n f).hxd = s.hxd := rfl
@[simp] theorem State.upStack_mgmt (s : State) (n : Nat) (f : Stack → Stack) : (s.upStack n f).mgmt = s.mgmt := rfl
@[simp] theorem State.upStack_mem (s : State) (n : Nat) (f : Stack → Stack) : (s.upStack n f).mem = s.mem := rfl
@[simp] theorem State.upStack_codes (s : State) (n : Nat) (f : Stack → Stack) : (s.upStack n f).codes = s.codes := rfl
@[simp] theorem State.upStack_nextCode (s : State) (n : Nat) (f : Stack → Stack) : (s.upStack n f).nextCode = s.nextCode := rfl
@[simp] theorem State.upStack_launches (s : State) (n : Nat) (f : Stack → Stack) : (s.upStack n f).launches = s.launches := rfl
@[simp] theorem State.upStack_nextRid (s : State) (n : Nat) (f : Stack → Stack) : (s.upStack n f).nextRid = s.nextRid := rfl
@[simp] theorem State.upStack_reqs (s : State) (n : Nat) (f : Stack → Stack) : (s.upStack n f).reqs = s.reqs := rfl
@[simp] theorem State.upStack_engs (s : State) (n : Nat) (f : Stack → Stack) : (s.upStack n f).engs = s.engs := rfl
@[simp] theorem State.upStack_nextId (s : State) (n : Nat) (f : Stack → Stack) : (s.upStack n f).nextId = s.nextId := rfl
@[simp] theorem State.upStack_iommu (s : State) (n : Nat) (f : Stack → Stack) : (s.upStack n f).iommu = s.iommu := rfl
@[simp] theorem State.upStack_roots (s : State) (n : Nat) (f : Stack → Stack) : (s.upStack n f).roots = s.roots := rfl
@[simp] theorem State.upStack_xcache (s : State) (n : Nat) (f : Stack → Stack) : (s.upStack n f).xcache = s.xcache := rfl
@[simp] theorem State.upStack_invalidated (s : State) (n : Nat) (f : Stack → Stack) : (s.upStack n f).invalidated = s.invalidated := rfl
@[simp] theorem State.upStack_answer (s : State) (n : Nat) (f : Stack → Stack) : (s.upStack n f).answer = s.answer := rfl

/-! Fields after `State.setTag`. -/

@[simp] theorem State.setTag_agenda (s : State) (n : Nat) (e : TagEnt) : (s.setTag n e).agenda = s.agenda := rfl
@[simp] theorem State.setTag_inflight (s : State) (n : Nat) (e : TagEnt) : (s.setTag n e).inflight = s.inflight := rfl
@[simp] theorem State.setTag_turn (s : State) (n : Nat) (e : TagEnt) : (s.setTag n e).turn = s.turn := rfl
@[simp] theorem State.setTag_cur (s : State) (n : Nat) (e : TagEnt) : (s.setTag n e).cur = s.cur := rfl
@[simp] theorem State.setTag_active (s : State) (n : Nat) (e : TagEnt) : (s.setTag n e).active = s.active := rfl
@[simp] theorem State.setTag_fresh (s : State) (n : Nat) (e : TagEnt) : (s.setTag n e).fresh = s.fresh := rfl
@[simp] theorem State.setTag_tc (s : State) (n : Nat) (e : TagEnt) : (s.setTag n e).tc = s.tc := rfl
@[simp] theorem State.setTag_cores (s : State) (n : Nat) (e : TagEnt) : (s.setTag n e).cores = s.cores := rfl
@[simp] theorem State.setTag_followers (s : State) (n : Nat) (e : TagEnt) : (s.setTag n e).followers = s.followers := rfl
@[simp] theorem State.setTag_saved (s : State) (n : Nat) (e : TagEnt) : (s.setTag n e).saved = s.saved := rfl
@[simp] theorem State.setTag_clusters (s : State) (n : Nat) (e : TagEnt) : (s.setTag n e).clusters = s.clusters := rfl
@[simp] theorem State.setTag_dies (s : State) (n : Nat) (e : TagEnt) : (s.setTag n e).dies = s.dies := rfl
@[simp] theorem State.setTag_stks (s : State) (n : Nat) (e : TagEnt) : (s.setTag n e).stks = s.stks := rfl
@[simp] theorem State.setTag_hxd (s : State) (n : Nat) (e : TagEnt) : (s.setTag n e).hxd = { s.hxd with tags := put s.hxd.tags n e } := rfl
@[simp] theorem State.setTag_mgmt (s : State) (n : Nat) (e : TagEnt) : (s.setTag n e).mgmt = s.mgmt := rfl
@[simp] theorem State.setTag_mem (s : State) (n : Nat) (e : TagEnt) : (s.setTag n e).mem = s.mem := rfl
@[simp] theorem State.setTag_codes (s : State) (n : Nat) (e : TagEnt) : (s.setTag n e).codes = s.codes := rfl
@[simp] theorem State.setTag_nextCode (s : State) (n : Nat) (e : TagEnt) : (s.setTag n e).nextCode = s.nextCode := rfl
@[simp] theorem State.setTag_launches (s : State) (n : Nat) (e : TagEnt) : (s.setTag n e).launches = s.launches := rfl
@[simp] theorem State.setTag_nextRid (s : State) (n : Nat) (e : TagEnt) : (s.setTag n e).nextRid = s.nextRid := rfl
@[simp] theorem State.setTag_reqs (s : State) (n : Nat) (e : TagEnt) : (s.setTag n e).reqs = s.reqs := rfl
@[simp] theorem State.setTag_engs (s : State) (n : Nat) (e : TagEnt) : (s.setTag n e).engs = s.engs := rfl
@[simp] theorem State.setTag_nextId (s : State) (n : Nat) (e : TagEnt) : (s.setTag n e).nextId = s.nextId := rfl
@[simp] theorem State.setTag_iommu (s : State) (n : Nat) (e : TagEnt) : (s.setTag n e).iommu = s.iommu := rfl
@[simp] theorem State.setTag_roots (s : State) (n : Nat) (e : TagEnt) : (s.setTag n e).roots = s.roots := rfl
@[simp] theorem State.setTag_xcache (s : State) (n : Nat) (e : TagEnt) : (s.setTag n e).xcache = s.xcache := rfl
@[simp] theorem State.setTag_invalidated (s : State) (n : Nat) (e : TagEnt) : (s.setTag n e).invalidated = s.invalidated := rfl
@[simp] theorem State.setTag_answer (s : State) (n : Nat) (e : TagEnt) : (s.setTag n e).answer = s.answer := rfl

/-! Fields after `State.upHxd`. -/

@[simp] theorem State.upHxd_agenda (s : State) (f : Hxd → Hxd) : (s.upHxd f).agenda = s.agenda := rfl
@[simp] theorem State.upHxd_inflight (s : State) (f : Hxd → Hxd) : (s.upHxd f).inflight = s.inflight := rfl
@[simp] theorem State.upHxd_turn (s : State) (f : Hxd → Hxd) : (s.upHxd f).turn = s.turn := rfl
@[simp] theorem State.upHxd_cur (s : State) (f : Hxd → Hxd) : (s.upHxd f).cur = s.cur := rfl
@[simp] theorem State.upHxd_active (s : State) (f : Hxd → Hxd) : (s.upHxd f).active = s.active := rfl
@[simp] theorem State.upHxd_fresh (s : State) (f : Hxd → Hxd) : (s.upHxd f).fresh = s.fresh := rfl
@[simp] theorem State.upHxd_tc (s : State) (f : Hxd → Hxd) : (s.upHxd f).tc = s.tc := rfl
@[simp] theorem State.upHxd_cores (s : State) (f : Hxd → Hxd) : (s.upHxd f).cores = s.cores := rfl
@[simp] theorem State.upHxd_followers (s : State) (f : Hxd → Hxd) : (s.upHxd f).followers = s.followers := rfl
@[simp] theorem State.upHxd_saved (s : State) (f : Hxd → Hxd) : (s.upHxd f).saved = s.saved := rfl
@[simp] theorem State.upHxd_clusters (s : State) (f : Hxd → Hxd) : (s.upHxd f).clusters = s.clusters := rfl
@[simp] theorem State.upHxd_dies (s : State) (f : Hxd → Hxd) : (s.upHxd f).dies = s.dies := rfl
@[simp] theorem State.upHxd_stks (s : State) (f : Hxd → Hxd) : (s.upHxd f).stks = s.stks := rfl
@[simp] theorem State.upHxd_hxd (s : State) (f : Hxd → Hxd) : (s.upHxd f).hxd = f s.hxd := rfl
@[simp] theorem State.upHxd_mgmt (s : State) (f : Hxd → Hxd) : (s.upHxd f).mgmt = s.mgmt := rfl
@[simp] theorem State.upHxd_mem (s : State) (f : Hxd → Hxd) : (s.upHxd f).mem = s.mem := rfl
@[simp] theorem State.upHxd_codes (s : State) (f : Hxd → Hxd) : (s.upHxd f).codes = s.codes := rfl
@[simp] theorem State.upHxd_nextCode (s : State) (f : Hxd → Hxd) : (s.upHxd f).nextCode = s.nextCode := rfl
@[simp] theorem State.upHxd_launches (s : State) (f : Hxd → Hxd) : (s.upHxd f).launches = s.launches := rfl
@[simp] theorem State.upHxd_nextRid (s : State) (f : Hxd → Hxd) : (s.upHxd f).nextRid = s.nextRid := rfl
@[simp] theorem State.upHxd_reqs (s : State) (f : Hxd → Hxd) : (s.upHxd f).reqs = s.reqs := rfl
@[simp] theorem State.upHxd_engs (s : State) (f : Hxd → Hxd) : (s.upHxd f).engs = s.engs := rfl
@[simp] theorem State.upHxd_nextId (s : State) (f : Hxd → Hxd) : (s.upHxd f).nextId = s.nextId := rfl
@[simp] theorem State.upHxd_iommu (s : State) (f : Hxd → Hxd) : (s.upHxd f).iommu = s.iommu := rfl
@[simp] theorem State.upHxd_roots (s : State) (f : Hxd → Hxd) : (s.upHxd f).roots = s.roots := rfl
@[simp] theorem State.upHxd_xcache (s : State) (f : Hxd → Hxd) : (s.upHxd f).xcache = s.xcache := rfl
@[simp] theorem State.upHxd_invalidated (s : State) (f : Hxd → Hxd) : (s.upHxd f).invalidated = s.invalidated := rfl
@[simp] theorem State.upHxd_answer (s : State) (f : Hxd → Hxd) : (s.upHxd f).answer = s.answer := rfl

/-! Fields after `State.setLaunch`. -/

@[simp] theorem State.setLaunch_agenda (s : State) (r : Nat) (l : Launch) : (s.setLaunch r l).agenda = s.agenda := rfl
@[simp] theorem State.setLaunch_inflight (s : State) (r : Nat) (l : Launch) : (s.setLaunch r l).inflight = s.inflight := rfl
@[simp] theorem State.setLaunch_turn (s : State) (r : Nat) (l : Launch) : (s.setLaunch r l).turn = s.turn := rfl
@[simp] theorem State.setLaunch_cur (s : State) (r : Nat) (l : Launch) : (s.setLaunch r l).cur = s.cur := rfl
@[simp] theorem State.setLaunch_active (s : State) (r : Nat) (l : Launch) : (s.setLaunch r l).active = s.active := rfl
@[simp] theorem State.setLaunch_fresh (s : State) (r : Nat) (l : Launch) : (s.setLaunch r l).fresh = s.fresh := rfl
@[simp] theorem State.setLaunch_tc (s : State) (r : Nat) (l : Launch) : (s.setLaunch r l).tc = s.tc := rfl
@[simp] theorem State.setLaunch_cores (s : State) (r : Nat) (l : Launch) : (s.setLaunch r l).cores = s.cores := rfl
@[simp] theorem State.setLaunch_followers (s : State) (r : Nat) (l : Launch) : (s.setLaunch r l).followers = s.followers := rfl
@[simp] theorem State.setLaunch_saved (s : State) (r : Nat) (l : Launch) : (s.setLaunch r l).saved = s.saved := rfl
@[simp] theorem State.setLaunch_clusters (s : State) (r : Nat) (l : Launch) : (s.setLaunch r l).clusters = s.clusters := rfl
@[simp] theorem State.setLaunch_dies (s : State) (r : Nat) (l : Launch) : (s.setLaunch r l).dies = s.dies := rfl
@[simp] theorem State.setLaunch_stks (s : State) (r : Nat) (l : Launch) : (s.setLaunch r l).stks = s.stks := rfl
@[simp] theorem State.setLaunch_hxd (s : State) (r : Nat) (l : Launch) : (s.setLaunch r l).hxd = s.hxd := rfl
@[simp] theorem State.setLaunch_mgmt (s : State) (r : Nat) (l : Launch) : (s.setLaunch r l).mgmt = s.mgmt := rfl
@[simp] theorem State.setLaunch_mem (s : State) (r : Nat) (l : Launch) : (s.setLaunch r l).mem = s.mem := rfl
@[simp] theorem State.setLaunch_codes (s : State) (r : Nat) (l : Launch) : (s.setLaunch r l).codes = s.codes := rfl
@[simp] theorem State.setLaunch_nextCode (s : State) (r : Nat) (l : Launch) : (s.setLaunch r l).nextCode = s.nextCode := rfl
@[simp] theorem State.setLaunch_launches (s : State) (r : Nat) (l : Launch) : (s.setLaunch r l).launches = put s.launches r l := rfl
@[simp] theorem State.setLaunch_nextRid (s : State) (r : Nat) (l : Launch) : (s.setLaunch r l).nextRid = s.nextRid := rfl
@[simp] theorem State.setLaunch_reqs (s : State) (r : Nat) (l : Launch) : (s.setLaunch r l).reqs = s.reqs := rfl
@[simp] theorem State.setLaunch_engs (s : State) (r : Nat) (l : Launch) : (s.setLaunch r l).engs = s.engs := rfl
@[simp] theorem State.setLaunch_nextId (s : State) (r : Nat) (l : Launch) : (s.setLaunch r l).nextId = s.nextId := rfl
@[simp] theorem State.setLaunch_iommu (s : State) (r : Nat) (l : Launch) : (s.setLaunch r l).iommu = s.iommu := rfl
@[simp] theorem State.setLaunch_roots (s : State) (r : Nat) (l : Launch) : (s.setLaunch r l).roots = s.roots := rfl
@[simp] theorem State.setLaunch_xcache (s : State) (r : Nat) (l : Launch) : (s.setLaunch r l).xcache = s.xcache := rfl
@[simp] theorem State.setLaunch_invalidated (s : State) (r : Nat) (l : Launch) : (s.setLaunch r l).invalidated = s.invalidated := rfl
@[simp] theorem State.setLaunch_answer (s : State) (r : Nat) (l : Launch) : (s.setLaunch r l).answer = s.answer := rfl

/-! Fields after `State.owe`. -/

@[simp] theorem State.owe_agenda (s : State) (i : Instr) : (s.owe i).agenda = s.agenda := rfl
@[simp] theorem State.owe_inflight (s : State) (i : Instr) : (s.owe i).inflight = addNew s.inflight i := rfl
@[simp] theorem State.owe_turn (s : State) (i : Instr) : (s.owe i).turn = s.turn := rfl
@[simp] theorem State.owe_cur (s : State) (i : Instr) : (s.owe i).cur = s.cur := rfl
@[simp] theorem State.owe_active (s : State) (i : Instr) : (s.owe i).active = s.active := rfl
@[simp] theorem State.owe_fresh (s : State) (i : Instr) : (s.owe i).fresh = s.fresh := rfl
@[simp] theorem State.owe_tc (s : State) (i : Instr) : (s.owe i).tc = s.tc := rfl
@[simp] theorem State.owe_cores (s : State) (i : Instr) : (s.owe i).cores = s.cores := rfl
@[simp] theorem State.owe_followers (s : State) (i : Instr) : (s.owe i).followers = s.followers := rfl
@[simp] theorem State.owe_saved (s : State) (i : Instr) : (s.owe i).saved = s.saved := rfl
@[simp] theorem State.owe_clusters (s : State) (i : Instr) : (s.owe i).clusters = s.clusters := rfl
@[simp] theorem State.owe_dies (s : State) (i : Instr) : (s.owe i).dies = s.dies := rfl
@[simp] theorem State.owe_stks (s : State) (i : Instr) : (s.owe i).stks = s.stks := rfl
@[simp] theorem State.owe_hxd (s : State) (i : Instr) : (s.owe i).hxd = s.hxd := rfl
@[simp] theorem State.owe_mgmt (s : State) (i : Instr) : (s.owe i).mgmt = s.mgmt := rfl
@[simp] theorem State.owe_mem (s : State) (i : Instr) : (s.owe i).mem = s.mem := rfl
@[simp] theorem State.owe_codes (s : State) (i : Instr) : (s.owe i).codes = s.codes := rfl
@[simp] theorem State.owe_nextCode (s : State) (i : Instr) : (s.owe i).nextCode = s.nextCode := rfl
@[simp] theorem State.owe_launches (s : State) (i : Instr) : (s.owe i).launches = s.launches := rfl
@[simp] theorem State.owe_nextRid (s : State) (i : Instr) : (s.owe i).nextRid = s.nextRid := rfl
@[simp] theorem State.owe_reqs (s : State) (i : Instr) : (s.owe i).reqs = s.reqs := rfl
@[simp] theorem State.owe_engs (s : State) (i : Instr) : (s.owe i).engs = s.engs := rfl
@[simp] theorem State.owe_nextId (s : State) (i : Instr) : (s.owe i).nextId = s.nextId := rfl
@[simp] theorem State.owe_iommu (s : State) (i : Instr) : (s.owe i).iommu = s.iommu := rfl
@[simp] theorem State.owe_roots (s : State) (i : Instr) : (s.owe i).roots = s.roots := rfl
@[simp] theorem State.owe_xcache (s : State) (i : Instr) : (s.owe i).xcache = s.xcache := rfl
@[simp] theorem State.owe_invalidated (s : State) (i : Instr) : (s.owe i).invalidated = s.invalidated := rfl
@[simp] theorem State.owe_answer (s : State) (i : Instr) : (s.owe i).answer = s.answer := rfl

/-! Fields after `State.oweEach`. -/

@[simp] theorem State.oweEach_agenda (s : State) (i : Instr) : (s.oweEach i).agenda = s.agenda := rfl
@[simp] theorem State.oweEach_inflight (s : State) (i : Instr) : (s.oweEach i).inflight = s.inflight ++ [i] := rfl
@[simp] theorem State.oweEach_turn (s : State) (i : Instr) : (s.oweEach i).turn = s.turn := rfl
@[simp] theorem State.oweEach_cur (s : State) (i : Instr) : (s.oweEach i).cur = s.cur := rfl
@[simp] theorem State.oweEach_active (s : State) (i : Instr) : (s.oweEach i).active = s.active := rfl
@[simp] theorem State.oweEach_fresh (s : State) (i : Instr) : (s.oweEach i).fresh = s.fresh := rfl
@[simp] theorem State.oweEach_tc (s : State) (i : Instr) : (s.oweEach i).tc = s.tc := rfl
@[simp] theorem State.oweEach_cores (s : State) (i : Instr) : (s.oweEach i).cores = s.cores := rfl
@[simp] theorem State.oweEach_followers (s : State) (i : Instr) : (s.oweEach i).followers = s.followers := rfl
@[simp] theorem State.oweEach_saved (s : State) (i : Instr) : (s.oweEach i).saved = s.saved := rfl
@[simp] theorem State.oweEach_clusters (s : State) (i : Instr) : (s.oweEach i).clusters = s.clusters := rfl
@[simp] theorem State.oweEach_dies (s : State) (i : Instr) : (s.oweEach i).dies = s.dies := rfl
@[simp] theorem State.oweEach_stks (s : State) (i : Instr) : (s.oweEach i).stks = s.stks := rfl
@[simp] theorem State.oweEach_hxd (s : State) (i : Instr) : (s.oweEach i).hxd = s.hxd := rfl
@[simp] theorem State.oweEach_mgmt (s : State) (i : Instr) : (s.oweEach i).mgmt = s.mgmt := rfl
@[simp] theorem State.oweEach_mem (s : State) (i : Instr) : (s.oweEach i).mem = s.mem := rfl
@[simp] theorem State.oweEach_codes (s : State) (i : Instr) : (s.oweEach i).codes = s.codes := rfl
@[simp] theorem State.oweEach_nextCode (s : State) (i : Instr) : (s.oweEach i).nextCode = s.nextCode := rfl
@[simp] theorem State.oweEach_launches (s : State) (i : Instr) : (s.oweEach i).launches = s.launches := rfl
@[simp] theorem State.oweEach_nextRid (s : State) (i : Instr) : (s.oweEach i).nextRid = s.nextRid := rfl
@[simp] theorem State.oweEach_reqs (s : State) (i : Instr) : (s.oweEach i).reqs = s.reqs := rfl
@[simp] theorem State.oweEach_engs (s : State) (i : Instr) : (s.oweEach i).engs = s.engs := rfl
@[simp] theorem State.oweEach_nextId (s : State) (i : Instr) : (s.oweEach i).nextId = s.nextId := rfl
@[simp] theorem State.oweEach_iommu (s : State) (i : Instr) : (s.oweEach i).iommu = s.iommu := rfl
@[simp] theorem State.oweEach_roots (s : State) (i : Instr) : (s.oweEach i).roots = s.roots := rfl
@[simp] theorem State.oweEach_xcache (s : State) (i : Instr) : (s.oweEach i).xcache = s.xcache := rfl
@[simp] theorem State.oweEach_invalidated (s : State) (i : Instr) : (s.oweEach i).invalidated = s.invalidated := rfl
@[simp] theorem State.oweEach_answer (s : State) (i : Instr) : (s.oweEach i).answer = s.answer := rfl

/-! Fields after `State.addReq`. -/

@[simp] theorem State.addReq_agenda (s : State) (r : Req) : (s.addReq r).agenda = s.agenda := rfl
@[simp] theorem State.addReq_inflight (s : State) (r : Req) : (s.addReq r).inflight = s.inflight := rfl
@[simp] theorem State.addReq_turn (s : State) (r : Req) : (s.addReq r).turn = s.turn := rfl
@[simp] theorem State.addReq_cur (s : State) (r : Req) : (s.addReq r).cur = s.cur := rfl
@[simp] theorem State.addReq_active (s : State) (r : Req) : (s.addReq r).active = s.active := rfl
@[simp] theorem State.addReq_fresh (s : State) (r : Req) : (s.addReq r).fresh = s.fresh := rfl
@[simp] theorem State.addReq_tc (s : State) (r : Req) : (s.addReq r).tc = s.tc := rfl
@[simp] theorem State.addReq_cores (s : State) (r : Req) : (s.addReq r).cores = s.cores := rfl
@[simp] theorem State.addReq_followers (s : State) (r : Req) : (s.addReq r).followers = s.followers := rfl
@[simp] theorem State.addReq_saved (s : State) (r : Req) : (s.addReq r).saved = s.saved := rfl
@[simp] theorem State.addReq_clusters (s : State) (r : Req) : (s.addReq r).clusters = s.clusters := rfl
@[simp] theorem State.addReq_dies (s : State) (r : Req) : (s.addReq r).dies = s.dies := rfl
@[simp] theorem State.addReq_stks (s : State) (r : Req) : (s.addReq r).stks = s.stks := rfl
@[simp] theorem State.addReq_hxd (s : State) (r : Req) : (s.addReq r).hxd = s.hxd := rfl
@[simp] theorem State.addReq_mgmt (s : State) (r : Req) : (s.addReq r).mgmt = s.mgmt := rfl
@[simp] theorem State.addReq_mem (s : State) (r : Req) : (s.addReq r).mem = s.mem := rfl
@[simp] theorem State.addReq_codes (s : State) (r : Req) : (s.addReq r).codes = s.codes := rfl
@[simp] theorem State.addReq_nextCode (s : State) (r : Req) : (s.addReq r).nextCode = s.nextCode := rfl
@[simp] theorem State.addReq_launches (s : State) (r : Req) : (s.addReq r).launches = s.launches := rfl
@[simp] theorem State.addReq_nextRid (s : State) (r : Req) : (s.addReq r).nextRid = s.nextRid := rfl
@[simp] theorem State.addReq_reqs (s : State) (r : Req) : (s.addReq r).reqs = put s.reqs s.nextId r := rfl
@[simp] theorem State.addReq_engs (s : State) (r : Req) : (s.addReq r).engs = s.engs := rfl
@[simp] theorem State.addReq_nextId (s : State) (r : Req) : (s.addReq r).nextId = s.nextId + 1 := rfl
@[simp] theorem State.addReq_iommu (s : State) (r : Req) : (s.addReq r).iommu = s.iommu := rfl
@[simp] theorem State.addReq_roots (s : State) (r : Req) : (s.addReq r).roots = s.roots := rfl
@[simp] theorem State.addReq_xcache (s : State) (r : Req) : (s.addReq r).xcache = s.xcache := rfl
@[simp] theorem State.addReq_invalidated (s : State) (r : Req) : (s.addReq r).invalidated = s.invalidated := rfl
@[simp] theorem State.addReq_answer (s : State) (r : Req) : (s.addReq r).answer = s.answer := rfl

/-! Fields after `State.dropReq`. -/

@[simp] theorem State.dropReq_agenda (s : State) (id : Nat) : (s.dropReq id).agenda = s.agenda := rfl
@[simp] theorem State.dropReq_inflight (s : State) (id : Nat) : (s.dropReq id).inflight = s.inflight := rfl
@[simp] theorem State.dropReq_turn (s : State) (id : Nat) : (s.dropReq id).turn = s.turn := rfl
@[simp] theorem State.dropReq_cur (s : State) (id : Nat) : (s.dropReq id).cur = s.cur := rfl
@[simp] theorem State.dropReq_active (s : State) (id : Nat) : (s.dropReq id).active = s.active := rfl
@[simp] theorem State.dropReq_fresh (s : State) (id : Nat) : (s.dropReq id).fresh = s.fresh := rfl
@[simp] theorem State.dropReq_tc (s : State) (id : Nat) : (s.dropReq id).tc = s.tc := rfl
@[simp] theorem State.dropReq_cores (s : State) (id : Nat) : (s.dropReq id).cores = s.cores := rfl
@[simp] theorem State.dropReq_followers (s : State) (id : Nat) : (s.dropReq id).followers = s.followers := rfl
@[simp] theorem State.dropReq_saved (s : State) (id : Nat) : (s.dropReq id).saved = s.saved := rfl
@[simp] theorem State.dropReq_clusters (s : State) (id : Nat) : (s.dropReq id).clusters = s.clusters := rfl
@[simp] theorem State.dropReq_dies (s : State) (id : Nat) : (s.dropReq id).dies = s.dies := rfl
@[simp] theorem State.dropReq_stks (s : State) (id : Nat) : (s.dropReq id).stks = s.stks := rfl
@[simp] theorem State.dropReq_hxd (s : State) (id : Nat) : (s.dropReq id).hxd = s.hxd := rfl
@[simp] theorem State.dropReq_mgmt (s : State) (id : Nat) : (s.dropReq id).mgmt = s.mgmt := rfl
@[simp] theorem State.dropReq_mem (s : State) (id : Nat) : (s.dropReq id).mem = s.mem := rfl
@[simp] theorem State.dropReq_codes (s : State) (id : Nat) : (s.dropReq id).codes = s.codes := rfl
@[simp] theorem State.dropReq_nextCode (s : State) (id : Nat) : (s.dropReq id).nextCode = s.nextCode := rfl
@[simp] theorem State.dropReq_launches (s : State) (id : Nat) : (s.dropReq id).launches = s.launches := rfl
@[simp] theorem State.dropReq_nextRid (s : State) (id : Nat) : (s.dropReq id).nextRid = s.nextRid := rfl
@[simp] theorem State.dropReq_reqs (s : State) (id : Nat) : (s.dropReq id).reqs = del s.reqs id := rfl
@[simp] theorem State.dropReq_engs (s : State) (id : Nat) : (s.dropReq id).engs = s.engs := rfl
@[simp] theorem State.dropReq_nextId (s : State) (id : Nat) : (s.dropReq id).nextId = s.nextId := rfl
@[simp] theorem State.dropReq_iommu (s : State) (id : Nat) : (s.dropReq id).iommu = s.iommu := rfl
@[simp] theorem State.dropReq_roots (s : State) (id : Nat) : (s.dropReq id).roots = s.roots := rfl
@[simp] theorem State.dropReq_xcache (s : State) (id : Nat) : (s.dropReq id).xcache = s.xcache := rfl
@[simp] theorem State.dropReq_invalidated (s : State) (id : Nat) : (s.dropReq id).invalidated = s.invalidated := rfl
@[simp] theorem State.dropReq_answer (s : State) (id : Nat) : (s.dropReq id).answer = s.answer := rfl

/-! Fields after `Core.kill`. -/

@[simp] theorem Core.kill_rid (k : Core) (l : List Nat) : (k.kill l).rid = k.rid := rfl
@[simp] theorem Core.kill_share (k : Core) (l : List Nat) : (k.kill l).share = k.share := rfl
@[simp] theorem Core.kill_lidx (k : Core) (l : List Nat) : (k.kill l).lidx = k.lidx := rfl
@[simp] theorem Core.kill_ctag (k : Core) (l : List Nat) : (k.kill l).ctag = k.ctag := rfl
@[simp] theorem Core.kill_token (k : Core) (l : List Nat) : (k.kill l).token = k.token := rfl
@[simp] theorem Core.kill_code (k : Core) (l : List Nat) : (k.kill l).code = k.code := rfl
@[simp] theorem Core.kill_strict (k : Core) (l : List Nat) : (k.kill l).strict = k.strict := rfl
@[simp] theorem Core.kill_paired (k : Core) (l : List Nat) : (k.kill l).paired = k.paired := rfl
@[simp] theorem Core.kill_nmv (k : Core) (l : List Nat) : (k.kill l).nmv = k.nmv := rfl
@[simp] theorem Core.kill_follow (k : Core) (l : List Nat) : (k.kill l).follow = k.follow := rfl
@[simp] theorem Core.kill_defprof (k : Core) (l : List Nat) : (k.kill l).defprof = k.defprof := rfl
@[simp] theorem Core.kill_quota (k : Core) (l : List Nat) : (k.kill l).quota = k.quota := rfl
@[simp] theorem Core.kill_ldecl (k : Core) (l : List Nat) : (k.kill l).ldecl = k.ldecl := rfl
@[simp] theorem Core.kill_s (k : Core) (l : List Nat) : (k.kill l).s = k.s := rfl
@[simp] theorem Core.kill_v (k : Core) (l : List Nat) : (k.kill l).v = k.v := rfl
@[simp] theorem Core.kill_p (k : Core) (l : List Nat) : (k.kill l).p = k.p := rfl
@[simp] theorem Core.kill_f (k : Core) (l : List Nat) : (k.kill l).f = k.f := rfl
@[simp] theorem Core.kill_dead (k : Core) (l : List Nat) : (k.kill l).dead = k.dead := rfl
@[simp] theorem Core.kill_k (k : Core) (l : List Nat) : (k.kill l).k = k.k := rfl
@[simp] theorem Core.kill_stale (k : Core) (l : List Nat) : (k.kill l).stale = k.stale := rfl
@[simp] theorem Core.kill_seed0 (k : Core) (l : List Nat) : (k.kill l).seed0 = k.seed0 := rfl
@[simp] theorem Core.kill_seed1 (k : Core) (l : List Nat) : (k.kill l).seed1 = k.seed1 := rfl
@[simp] theorem Core.kill_flags (k : Core) (l : List Nat) : (k.kill l).flags = k.flags := rfl
@[simp] theorem Core.kill_mask (k : Core) (l : List Nat) : (k.kill l).mask = k.mask := rfl
@[simp] theorem Core.kill_ev (k : Core) (l : List Nat) : (k.kill l).ev = k.ev := rfl
@[simp] theorem Core.kill_cause (k : Core) (l : List Nat) : (k.kill l).cause = k.cause := rfl
@[simp] theorem Core.kill_tfbase (k : Core) (l : List Nat) : (k.kill l).tfbase = k.tfbase := rfl
@[simp] theorem Core.kill_task (k : Core) (l : List Nat) : (k.kill l).task = k.task := rfl
@[simp] theorem Core.kill_phase (k : Core) (l : List Nat) : (k.kill l).phase = k.phase := rfl
@[simp] theorem Core.kill_pos (k : Core) (l : List Nat) : (k.kill l).pos = k.pos := rfl
@[simp] theorem Core.kill_lastPos (k : Core) (l : List Nat) : (k.kill l).lastPos = k.lastPos := rfl
@[simp] theorem Core.kill_ic (k : Core) (l : List Nat) : (k.kill l).ic = k.ic := rfl
@[simp] theorem Core.kill_seq (k : Core) (l : List Nat) : (k.kill l).seq = k.seq := rfl
@[simp] theorem Core.kill_loops (k : Core) (l : List Nat) : (k.kill l).loops = k.loops := rfl
@[simp] theorem Core.kill_ras (k : Core) (l : List Nat) : (k.kill l).ras = k.ras := rfl
@[simp] theorem Core.kill_pend (k : Core) (l : List Nat) : (k.kill l).pend = k.pend := rfl
@[simp] theorem Core.kill_bpend (k : Core) (l : List Nat) : (k.kill l).bpend = k.bpend := rfl
@[simp] theorem Core.kill_cbuf (k : Core) (l : List Nat) : (k.kill l).cbuf = k.cbuf := rfl
@[simp] theorem Core.kill_len (k : Core) (l : List Nat) : (k.kill l).len = k.len := rfl
@[simp] theorem Core.kill_prof (k : Core) (l : List Nat) : (k.kill l).prof = k.prof := rfl
@[simp] theorem Core.kill_stitchBit (k : Core) (l : List Nat) : (k.kill l).stitchBit = k.stitchBit := rfl
@[simp] theorem Core.kill_br (k : Core) (l : List Nat) : (k.kill l).br = k.br := rfl
@[simp] theorem Core.kill_bound (k : Core) (l : List Nat) : (k.kill l).bound = k.bound ++ l.map BWrite.dead := rfl
@[simp] theorem Core.kill_release (k : Core) (l : List Nat) : (k.kill l).release = k.release := rfl
@[simp] theorem Core.kill_stitchOp (k : Core) (l : List Nat) : (k.kill l).stitchOp = k.stitchOp := rfl
@[simp] theorem Core.kill_op (k : Core) (l : List Nat) : (k.kill l).op = k.op := rfl
@[simp] theorem Core.kill_await (k : Core) (l : List Nat) : (k.kill l).await = k.await := rfl
@[simp] theorem Core.kill_causes (k : Core) (l : List Nat) : (k.kill l).causes = k.causes := rfl
@[simp] theorem Core.kill_mon (k : Core) (l : List Nat) : (k.kill l).mon = k.mon := rfl
@[simp] theorem Core.kill_out (k : Core) (l : List Nat) : (k.kill l).out = k.out := rfl
@[simp] theorem Core.kill_mailbox (k : Core) (l : List Nat) : (k.kill l).mailbox = k.mailbox := rfl
@[simp] theorem Core.kill_cancelTc (k : Core) (l : List Nat) : (k.kill l).cancelTc = k.cancelTc := rfl
@[simp] theorem Core.kill_stopNext (k : Core) (l : List Nat) : (k.kill l).stopNext = k.stopNext := rfl
@[simp] theorem Core.kill_stall (k : Core) (l : List Nat) : (k.kill l).stall = k.stall := rfl
@[simp] theorem Core.kill_loopDue (k : Core) (l : List Nat) : (k.kill l).loopDue = k.loopDue := rfl
@[simp] theorem Core.kill_lastIssue (k : Core) (l : List Nat) : (k.kill l).lastIssue = k.lastIssue := rfl
@[simp] theorem Core.kill_spill (k : Core) (l : List Nat) : (k.kill l).spill = k.spill := rfl
@[simp] theorem Core.kill_banks (k : Core) (l : List Nat) : (k.kill l).banks = k.banks := rfl
@[simp] theorem Core.kill_alloc (k : Core) (l : List Nat) : (k.kill l).alloc = k.alloc := rfl
@[simp] theorem Core.kill_mx (k : Core) (l : List Nat) : (k.kill l).mx = k.mx := rfl
@[simp] theorem Core.kill_mxBase (k : Core) (l : List Nat) : (k.kill l).mxBase = k.mxBase := rfl
@[simp] theorem Core.kill_sbuf (k : Core) (l : List Nat) : (k.kill l).sbuf = k.sbuf := rfl
@[simp] theorem Core.kill_shadow (k : Core) (l : List Nat) : (k.kill l).shadow = k.shadow := rfl
@[simp] theorem Core.kill_rewound (k : Core) (l : List Nat) : (k.kill l).rewound = k.rewound := rfl
@[simp] theorem Core.kill_window (k : Core) (l : List Nat) : (k.kill l).window = k.window := rfl
@[simp] theorem Core.kill_after (k : Core) (l : List Nat) : (k.kill l).after = k.after := rfl
@[simp] theorem Core.kill_exiting (k : Core) (l : List Nat) : (k.kill l).exiting = k.exiting := rfl
@[simp] theorem Core.kill_seamRew (k : Core) (l : List Nat) : (k.kill l).seamRew = k.seamRew := rfl
@[simp] theorem Core.kill_seamWait (k : Core) (l : List Nat) : (k.kill l).seamWait = k.seamWait := rfl
@[simp] theorem Core.kill_evCleared (k : Core) (l : List Nat) : (k.kill l).evCleared = k.evCleared := rfl
@[simp] theorem Core.kill_bad (k : Core) (l : List Nat) : (k.kill l).bad = k.bad := rfl
@[simp] theorem Core.kill_badSpill (k : Core) (l : List Nat) : (k.kill l).badSpill = k.badSpill := rfl
@[simp] theorem Core.kill_badLocal (k : Core) (l : List Nat) : (k.kill l).badLocal = k.badLocal := rfl
@[simp] theorem Core.kill_tasks (k : Core) (l : List Nat) : (k.kill l).tasks = k.tasks := rfl
@[simp] theorem Core.kill_running (k : Core) (l : List Nat) : (k.kill l).running = k.running := rfl
@[simp] theorem Core.kill_todo (k : Core) (l : List Nat) : (k.kill l).todo = k.todo := rfl
@[simp] theorem Core.kill_asked (k : Core) (l : List Nat) : (k.kill l).asked = k.asked := rfl
@[simp] theorem Core.kill_posted (k : Core) (l : List Nat) : (k.kill l).posted = k.posted := rfl
@[simp] theorem Core.kill_pseq (k : Core) (l : List Nat) : (k.kill l).pseq = k.pseq := rfl
@[simp] theorem Core.kill_sleeves (k : Core) (l : List Nat) : (k.kill l).sleeves = k.sleeves := rfl
@[simp] theorem Core.kill_gfr (k : Core) (l : List Nat) : (k.kill l).gfr = k.gfr := rfl
@[simp] theorem Core.kill_waitCame (k : Core) (l : List Nat) : (k.kill l).waitCame = k.waitCame := rfl
@[simp] theorem Core.kill_came (k : Core) (l : List Nat) : (k.kill l).came = k.came := rfl
@[simp] theorem Core.kill_tfail (k : Core) (l : List Nat) : (k.kill l).tfail = k.tfail := rfl
@[simp] theorem Core.kill_pairBad (k : Core) (l : List Nat) : (k.kill l).pairBad = k.pairBad := rfl
@[simp] theorem Core.kill_local_ (k : Core) (l : List Nat) : (k.kill l).local_ = k.local_ := rfl
@[simp] theorem Core.kill_ct (k : Core) (l : List Nat) : (k.kill l).ct = k.ct := rfl
@[simp] theorem Core.kill_ctValid (k : Core) (l : List Nat) : (k.kill l).ctValid = k.ctValid := rfl
@[simp] theorem Core.kill_ctFail (k : Core) (l : List Nat) : (k.kill l).ctFail = k.ctFail := rfl

/-! Fields after `Core.deliver`. -/

@[simp] theorem Core.deliver_rid (k : Core) (n : Nat) (d : Dest) (l : Option (BitVec 3)) (x : Vec) (e : BitVec 6) :
    (k.deliver n d l x e).rid = k.rid := rfl
@[simp] theorem Core.deliver_share (k : Core) (n : Nat) (d : Dest) (l : Option (BitVec 3)) (x : Vec) (e : BitVec 6) :
    (k.deliver n d l x e).share = k.share := rfl
@[simp] theorem Core.deliver_lidx (k : Core) (n : Nat) (d : Dest) (l : Option (BitVec 3)) (x : Vec) (e : BitVec 6) :
    (k.deliver n d l x e).lidx = k.lidx := rfl
@[simp] theorem Core.deliver_ctag (k : Core) (n : Nat) (d : Dest) (l : Option (BitVec 3)) (x : Vec) (e : BitVec 6) :
    (k.deliver n d l x e).ctag = k.ctag := rfl
@[simp] theorem Core.deliver_token (k : Core) (n : Nat) (d : Dest) (l : Option (BitVec 3)) (x : Vec) (e : BitVec 6) :
    (k.deliver n d l x e).token = k.token := rfl
@[simp] theorem Core.deliver_code (k : Core) (n : Nat) (d : Dest) (l : Option (BitVec 3)) (x : Vec) (e : BitVec 6) :
    (k.deliver n d l x e).code = k.code := rfl
@[simp] theorem Core.deliver_strict (k : Core) (n : Nat) (d : Dest) (l : Option (BitVec 3)) (x : Vec) (e : BitVec 6) :
    (k.deliver n d l x e).strict = k.strict := rfl
@[simp] theorem Core.deliver_paired (k : Core) (n : Nat) (d : Dest) (l : Option (BitVec 3)) (x : Vec) (e : BitVec 6) :
    (k.deliver n d l x e).paired = k.paired := rfl
@[simp] theorem Core.deliver_nmv (k : Core) (n : Nat) (d : Dest) (l : Option (BitVec 3)) (x : Vec) (e : BitVec 6) :
    (k.deliver n d l x e).nmv = k.nmv := rfl
@[simp] theorem Core.deliver_follow (k : Core) (n : Nat) (d : Dest) (l : Option (BitVec 3)) (x : Vec) (e : BitVec 6) :
    (k.deliver n d l x e).follow = k.follow := rfl
@[simp] theorem Core.deliver_defprof (k : Core) (n : Nat) (d : Dest) (l : Option (BitVec 3)) (x : Vec) (e : BitVec 6) :
    (k.deliver n d l x e).defprof = k.defprof := rfl
@[simp] theorem Core.deliver_quota (k : Core) (n : Nat) (d : Dest) (l : Option (BitVec 3)) (x : Vec) (e : BitVec 6) :
    (k.deliver n d l x e).quota = k.quota := rfl
@[simp] theorem Core.deliver_ldecl (k : Core) (n : Nat) (d : Dest) (l : Option (BitVec 3)) (x : Vec) (e : BitVec 6) :
    (k.deliver n d l x e).ldecl = k.ldecl := rfl
@[simp] theorem Core.deliver_s (k : Core) (n : Nat) (d : Dest) (l : Option (BitVec 3)) (x : Vec) (e : BitVec 6) :
    (k.deliver n d l x e).s = k.s := rfl
@[simp] theorem Core.deliver_v (k : Core) (n : Nat) (d : Dest) (l : Option (BitVec 3)) (x : Vec) (e : BitVec 6) :
    (k.deliver n d l x e).v = k.v := rfl
@[simp] theorem Core.deliver_p (k : Core) (n : Nat) (d : Dest) (l : Option (BitVec 3)) (x : Vec) (e : BitVec 6) :
    (k.deliver n d l x e).p = k.p := rfl
@[simp] theorem Core.deliver_f (k : Core) (n : Nat) (d : Dest) (l : Option (BitVec 3)) (x : Vec) (e : BitVec 6) :
    (k.deliver n d l x e).f = k.f := rfl
@[simp] theorem Core.deliver_dead (k : Core) (n : Nat) (d : Dest) (l : Option (BitVec 3)) (x : Vec) (e : BitVec 6) :
    (k.deliver n d l x e).dead = k.dead := rfl
@[simp] theorem Core.deliver_k (k : Core) (n : Nat) (d : Dest) (l : Option (BitVec 3)) (x : Vec) (e : BitVec 6) :
    (k.deliver n d l x e).k = k.k := rfl
@[simp] theorem Core.deliver_stale (k : Core) (n : Nat) (d : Dest) (l : Option (BitVec 3)) (x : Vec) (e : BitVec 6) :
    (k.deliver n d l x e).stale = k.stale := rfl
@[simp] theorem Core.deliver_seed0 (k : Core) (n : Nat) (d : Dest) (l : Option (BitVec 3)) (x : Vec) (e : BitVec 6) :
    (k.deliver n d l x e).seed0 = k.seed0 := rfl
@[simp] theorem Core.deliver_seed1 (k : Core) (n : Nat) (d : Dest) (l : Option (BitVec 3)) (x : Vec) (e : BitVec 6) :
    (k.deliver n d l x e).seed1 = k.seed1 := rfl
@[simp] theorem Core.deliver_flags (k : Core) (n : Nat) (d : Dest) (l : Option (BitVec 3)) (x : Vec) (e : BitVec 6) :
    (k.deliver n d l x e).flags = k.flags := rfl
@[simp] theorem Core.deliver_mask (k : Core) (n : Nat) (d : Dest) (l : Option (BitVec 3)) (x : Vec) (e : BitVec 6) :
    (k.deliver n d l x e).mask = k.mask := rfl
@[simp] theorem Core.deliver_ev (k : Core) (n : Nat) (d : Dest) (l : Option (BitVec 3)) (x : Vec) (e : BitVec 6) :
    (k.deliver n d l x e).ev = k.ev := rfl
@[simp] theorem Core.deliver_cause (k : Core) (n : Nat) (d : Dest) (l : Option (BitVec 3)) (x : Vec) (e : BitVec 6) :
    (k.deliver n d l x e).cause = k.cause := rfl
@[simp] theorem Core.deliver_tfbase (k : Core) (n : Nat) (d : Dest) (l : Option (BitVec 3)) (x : Vec) (e : BitVec 6) :
    (k.deliver n d l x e).tfbase = k.tfbase := rfl
@[simp] theorem Core.deliver_task (k : Core) (n : Nat) (d : Dest) (l : Option (BitVec 3)) (x : Vec) (e : BitVec 6) :
    (k.deliver n d l x e).task = k.task := rfl
@[simp] theorem Core.deliver_phase (k : Core) (n : Nat) (d : Dest) (l : Option (BitVec 3)) (x : Vec) (e : BitVec 6) :
    (k.deliver n d l x e).phase = k.phase := rfl
@[simp] theorem Core.deliver_pos (k : Core) (n : Nat) (d : Dest) (l : Option (BitVec 3)) (x : Vec) (e : BitVec 6) :
    (k.deliver n d l x e).pos = k.pos := rfl
@[simp] theorem Core.deliver_lastPos (k : Core) (n : Nat) (d : Dest) (l : Option (BitVec 3)) (x : Vec) (e : BitVec 6) :
    (k.deliver n d l x e).lastPos = k.lastPos := rfl
@[simp] theorem Core.deliver_ic (k : Core) (n : Nat) (d : Dest) (l : Option (BitVec 3)) (x : Vec) (e : BitVec 6) :
    (k.deliver n d l x e).ic = k.ic := rfl
@[simp] theorem Core.deliver_seq (k : Core) (n : Nat) (d : Dest) (l : Option (BitVec 3)) (x : Vec) (e : BitVec 6) :
    (k.deliver n d l x e).seq = k.seq + 1 := rfl
@[simp] theorem Core.deliver_loops (k : Core) (n : Nat) (d : Dest) (l : Option (BitVec 3)) (x : Vec) (e : BitVec 6) :
    (k.deliver n d l x e).loops = k.loops := rfl
@[simp] theorem Core.deliver_ras (k : Core) (n : Nat) (d : Dest) (l : Option (BitVec 3)) (x : Vec) (e : BitVec 6) :
    (k.deliver n d l x e).ras = k.ras := rfl
@[simp] theorem Core.deliver_pend (k : Core) (n : Nat) (d : Dest) (l : Option (BitVec 3)) (x : Vec) (e : BitVec 6) :
    (k.deliver n d l x e).pend = k.pend ++ [⟨k.ic + n, k.ic, k.seq, d, x, if k.mon.isSome then none else l, e, false, .ready, 0⟩] := rfl
@[simp] theorem Core.deliver_bpend (k : Core) (n : Nat) (d : Dest) (l : Option (BitVec 3)) (x : Vec) (e : BitVec 6) :
    (k.deliver n d l x e).bpend = k.bpend := rfl
@[simp] theorem Core.deliver_cbuf (k : Core) (n : Nat) (d : Dest) (l : Option (BitVec 3)) (x : Vec) (e : BitVec 6) :
    (k.deliver n d l x e).cbuf = k.cbuf := rfl
@[simp] theorem Core.deliver_len (k : Core) (n : Nat) (d : Dest) (l : Option (BitVec 3)) (x : Vec) (e : BitVec 6) :
    (k.deliver n d l x e).len = k.len := rfl
@[simp] theorem Core.deliver_prof (k : Core) (n : Nat) (d : Dest) (l : Option (BitVec 3)) (x : Vec) (e : BitVec 6) :
    (k.deliver n d l x e).prof = k.prof := rfl
@[simp] theorem Core.deliver_stitchBit (k : Core) (n : Nat) (d : Dest) (l : Option (BitVec 3)) (x : Vec) (e : BitVec 6) :
    (k.deliver n d l x e).stitchBit = k.stitchBit := rfl
@[simp] theorem Core.deliver_br (k : Core) (n : Nat) (d : Dest) (l : Option (BitVec 3)) (x : Vec) (e : BitVec 6) :
    (k.deliver n d l x e).br = k.br := rfl
@[simp] theorem Core.deliver_bound (k : Core) (n : Nat) (d : Dest) (l : Option (BitVec 3)) (x : Vec) (e : BitVec 6) :
    (k.deliver n d l x e).bound = k.bound := rfl
@[simp] theorem Core.deliver_release (k : Core) (n : Nat) (d : Dest) (l : Option (BitVec 3)) (x : Vec) (e : BitVec 6) :
    (k.deliver n d l x e).release = k.release := rfl
@[simp] theorem Core.deliver_stitchOp (k : Core) (n : Nat) (d : Dest) (l : Option (BitVec 3)) (x : Vec) (e : BitVec 6) :
    (k.deliver n d l x e).stitchOp = k.stitchOp := rfl
@[simp] theorem Core.deliver_op (k : Core) (n : Nat) (d : Dest) (l : Option (BitVec 3)) (x : Vec) (e : BitVec 6) :
    (k.deliver n d l x e).op = k.op := rfl
@[simp] theorem Core.deliver_await (k : Core) (n : Nat) (d : Dest) (l : Option (BitVec 3)) (x : Vec) (e : BitVec 6) :
    (k.deliver n d l x e).await = k.await := rfl
@[simp] theorem Core.deliver_causes (k : Core) (n : Nat) (d : Dest) (l : Option (BitVec 3)) (x : Vec) (e : BitVec 6) :
    (k.deliver n d l x e).causes = k.causes := rfl
@[simp] theorem Core.deliver_mon (k : Core) (n : Nat) (d : Dest) (l : Option (BitVec 3)) (x : Vec) (e : BitVec 6) :
    (k.deliver n d l x e).mon = k.mon := rfl
@[simp] theorem Core.deliver_out (k : Core) (n : Nat) (d : Dest) (l : Option (BitVec 3)) (x : Vec) (e : BitVec 6) :
    (k.deliver n d l x e).out = k.out := rfl
@[simp] theorem Core.deliver_mailbox (k : Core) (n : Nat) (d : Dest) (l : Option (BitVec 3)) (x : Vec) (e : BitVec 6) :
    (k.deliver n d l x e).mailbox = k.mailbox := rfl
@[simp] theorem Core.deliver_cancelTc (k : Core) (n : Nat) (d : Dest) (l : Option (BitVec 3)) (x : Vec) (e : BitVec 6) :
    (k.deliver n d l x e).cancelTc = k.cancelTc := rfl
@[simp] theorem Core.deliver_stopNext (k : Core) (n : Nat) (d : Dest) (l : Option (BitVec 3)) (x : Vec) (e : BitVec 6) :
    (k.deliver n d l x e).stopNext = k.stopNext := rfl
@[simp] theorem Core.deliver_stall (k : Core) (n : Nat) (d : Dest) (l : Option (BitVec 3)) (x : Vec) (e : BitVec 6) :
    (k.deliver n d l x e).stall = k.stall := rfl
@[simp] theorem Core.deliver_loopDue (k : Core) (n : Nat) (d : Dest) (l : Option (BitVec 3)) (x : Vec) (e : BitVec 6) :
    (k.deliver n d l x e).loopDue = k.loopDue := rfl
@[simp] theorem Core.deliver_lastIssue (k : Core) (n : Nat) (d : Dest) (l : Option (BitVec 3)) (x : Vec) (e : BitVec 6) :
    (k.deliver n d l x e).lastIssue = k.lastIssue := rfl
@[simp] theorem Core.deliver_spill (k : Core) (n : Nat) (d : Dest) (l : Option (BitVec 3)) (x : Vec) (e : BitVec 6) :
    (k.deliver n d l x e).spill = k.spill := rfl
@[simp] theorem Core.deliver_banks (k : Core) (n : Nat) (d : Dest) (l : Option (BitVec 3)) (x : Vec) (e : BitVec 6) :
    (k.deliver n d l x e).banks = k.banks := rfl
@[simp] theorem Core.deliver_alloc (k : Core) (n : Nat) (d : Dest) (l : Option (BitVec 3)) (x : Vec) (e : BitVec 6) :
    (k.deliver n d l x e).alloc = k.alloc := rfl
@[simp] theorem Core.deliver_mx (k : Core) (n : Nat) (d : Dest) (l : Option (BitVec 3)) (x : Vec) (e : BitVec 6) :
    (k.deliver n d l x e).mx = k.mx := rfl
@[simp] theorem Core.deliver_mxBase (k : Core) (n : Nat) (d : Dest) (l : Option (BitVec 3)) (x : Vec) (e : BitVec 6) :
    (k.deliver n d l x e).mxBase = k.mxBase := rfl
@[simp] theorem Core.deliver_sbuf (k : Core) (n : Nat) (d : Dest) (l : Option (BitVec 3)) (x : Vec) (e : BitVec 6) :
    (k.deliver n d l x e).sbuf = k.sbuf := rfl
@[simp] theorem Core.deliver_shadow (k : Core) (n : Nat) (d : Dest) (l : Option (BitVec 3)) (x : Vec) (e : BitVec 6) :
    (k.deliver n d l x e).shadow = k.shadow := rfl
@[simp] theorem Core.deliver_rewound (k : Core) (n : Nat) (d : Dest) (l : Option (BitVec 3)) (x : Vec) (e : BitVec 6) :
    (k.deliver n d l x e).rewound = k.rewound := rfl
@[simp] theorem Core.deliver_window (k : Core) (n : Nat) (d : Dest) (l : Option (BitVec 3)) (x : Vec) (e : BitVec 6) :
    (k.deliver n d l x e).window = k.window := rfl
@[simp] theorem Core.deliver_after (k : Core) (n : Nat) (d : Dest) (l : Option (BitVec 3)) (x : Vec) (e : BitVec 6) :
    (k.deliver n d l x e).after = k.after := rfl
@[simp] theorem Core.deliver_exiting (k : Core) (n : Nat) (d : Dest) (l : Option (BitVec 3)) (x : Vec) (e : BitVec 6) :
    (k.deliver n d l x e).exiting = k.exiting := rfl
@[simp] theorem Core.deliver_seamRew (k : Core) (n : Nat) (d : Dest) (l : Option (BitVec 3)) (x : Vec) (e : BitVec 6) :
    (k.deliver n d l x e).seamRew = k.seamRew := rfl
@[simp] theorem Core.deliver_seamWait (k : Core) (n : Nat) (d : Dest) (l : Option (BitVec 3)) (x : Vec) (e : BitVec 6) :
    (k.deliver n d l x e).seamWait = k.seamWait := rfl
@[simp] theorem Core.deliver_evCleared (k : Core) (n : Nat) (d : Dest) (l : Option (BitVec 3)) (x : Vec) (e : BitVec 6) :
    (k.deliver n d l x e).evCleared = k.evCleared := rfl
@[simp] theorem Core.deliver_bad (k : Core) (n : Nat) (d : Dest) (l : Option (BitVec 3)) (x : Vec) (e : BitVec 6) :
    (k.deliver n d l x e).bad = k.bad := rfl
@[simp] theorem Core.deliver_badSpill (k : Core) (n : Nat) (d : Dest) (l : Option (BitVec 3)) (x : Vec) (e : BitVec 6) :
    (k.deliver n d l x e).badSpill = k.badSpill := rfl
@[simp] theorem Core.deliver_badLocal (k : Core) (n : Nat) (d : Dest) (l : Option (BitVec 3)) (x : Vec) (e : BitVec 6) :
    (k.deliver n d l x e).badLocal = k.badLocal := rfl
@[simp] theorem Core.deliver_tasks (k : Core) (n : Nat) (d : Dest) (l : Option (BitVec 3)) (x : Vec) (e : BitVec 6) :
    (k.deliver n d l x e).tasks = k.tasks := rfl
@[simp] theorem Core.deliver_running (k : Core) (n : Nat) (d : Dest) (l : Option (BitVec 3)) (x : Vec) (e : BitVec 6) :
    (k.deliver n d l x e).running = k.running := rfl
@[simp] theorem Core.deliver_todo (k : Core) (n : Nat) (d : Dest) (l : Option (BitVec 3)) (x : Vec) (e : BitVec 6) :
    (k.deliver n d l x e).todo = k.todo := rfl
@[simp] theorem Core.deliver_asked (k : Core) (n : Nat) (d : Dest) (l : Option (BitVec 3)) (x : Vec) (e : BitVec 6) :
    (k.deliver n d l x e).asked = k.asked := rfl
@[simp] theorem Core.deliver_posted (k : Core) (n : Nat) (d : Dest) (l : Option (BitVec 3)) (x : Vec) (e : BitVec 6) :
    (k.deliver n d l x e).posted = k.posted := rfl
@[simp] theorem Core.deliver_pseq (k : Core) (n : Nat) (d : Dest) (l : Option (BitVec 3)) (x : Vec) (e : BitVec 6) :
    (k.deliver n d l x e).pseq = k.pseq := rfl
@[simp] theorem Core.deliver_sleeves (k : Core) (n : Nat) (d : Dest) (l : Option (BitVec 3)) (x : Vec) (e : BitVec 6) :
    (k.deliver n d l x e).sleeves = k.sleeves := rfl
@[simp] theorem Core.deliver_gfr (k : Core) (n : Nat) (d : Dest) (l : Option (BitVec 3)) (x : Vec) (e : BitVec 6) :
    (k.deliver n d l x e).gfr = k.gfr := rfl
@[simp] theorem Core.deliver_waitCame (k : Core) (n : Nat) (d : Dest) (l : Option (BitVec 3)) (x : Vec) (e : BitVec 6) :
    (k.deliver n d l x e).waitCame = k.waitCame := rfl
@[simp] theorem Core.deliver_came (k : Core) (n : Nat) (d : Dest) (l : Option (BitVec 3)) (x : Vec) (e : BitVec 6) :
    (k.deliver n d l x e).came = k.came := rfl
@[simp] theorem Core.deliver_tfail (k : Core) (n : Nat) (d : Dest) (l : Option (BitVec 3)) (x : Vec) (e : BitVec 6) :
    (k.deliver n d l x e).tfail = k.tfail := rfl
@[simp] theorem Core.deliver_pairBad (k : Core) (n : Nat) (d : Dest) (l : Option (BitVec 3)) (x : Vec) (e : BitVec 6) :
    (k.deliver n d l x e).pairBad = k.pairBad := rfl
@[simp] theorem Core.deliver_local_ (k : Core) (n : Nat) (d : Dest) (l : Option (BitVec 3)) (x : Vec) (e : BitVec 6) :
    (k.deliver n d l x e).local_ = k.local_ := rfl
@[simp] theorem Core.deliver_ct (k : Core) (n : Nat) (d : Dest) (l : Option (BitVec 3)) (x : Vec) (e : BitVec 6) :
    (k.deliver n d l x e).ct = k.ct := rfl
@[simp] theorem Core.deliver_ctValid (k : Core) (n : Nat) (d : Dest) (l : Option (BitVec 3)) (x : Vec) (e : BitVec 6) :
    (k.deliver n d l x e).ctValid = k.ctValid := rfl
@[simp] theorem Core.deliver_ctFail (k : Core) (n : Nat) (d : Dest) (l : Option (BitVec 3)) (x : Vec) (e : BitVec 6) :
    (k.deliver n d l x e).ctFail = k.ctFail := rfl

/-! Reading an agent after writing one. -/

@[simp] theorem State.core_setCore_same (s : State) (c : Nat) (k : Core) : (s.setCore c k).core c = k := by
  simp [State.core]

theorem State.core_setCore_other (s : State) (c d : Nat) (k : Core) (h : d ≠ c) : (s.setCore c k).core d = s.core d := by
  simp [State.core, look_put_other _ _ _ _ h]

@[simp] theorem State.core_upCore_same (s : State) (c : Nat) (f : Core → Core) : (s.upCore c f).core c = f (s.core c) := by
  simp [State.upCore]

theorem State.core_upCore_other (s : State) (c d : Nat) (f : Core → Core) (h : d ≠ c) : (s.upCore c f).core d = s.core d := by
  simp [State.upCore, State.core_setCore_other _ _ _ _ h]

@[simp] theorem State.me_setMe (s : State) (k : Core) : (s.setMe k).me = k := by
  simp [State.me, State.setMe, State.core]

@[simp] theorem State.me_upMe (s : State) (f : Core → Core) : (s.upMe f).me = f s.me := by
  simp [State.me, State.upMe, State.upCore, State.core]

theorem State.core_upMe_other (s : State) (d : Nat) (f : Core → Core) (h : d ≠ s.cur) : (s.upMe f).core d = s.core d :=
  State.core_upCore_other s s.cur d f h

@[simp] theorem State.die_setDie_same (s : State) (d : Nat) (x : Die) : (s.setDie d x).die d = x := by
  simp [State.die]

theorem State.die_setDie_other (s : State) (d e : Nat) (x : Die) (h : e ≠ d) : (s.setDie d x).die e = s.die e := by
  simp [State.die, look_put_other _ _ _ _ h]

@[simp] theorem State.stack_setStack_same (s : State) (n : Nat) (x : Stack) : (s.setStack n x).stack n = x := by
  simp [State.stack]

theorem State.stack_setStack_other (s : State) (n m : Nat) (x : Stack) (h : m ≠ n) : (s.setStack n x).stack m = s.stack m := by
  simp [State.stack, look_put_other _ _ _ _ h]

@[simp] theorem State.cluster_setCluster_same (s : State) (n : Nat) (x : Cluster) : (s.setCluster n x).cluster n = x := by
  simp [State.cluster]

theorem State.cluster_setCluster_other (s : State) (n m : Nat) (x : Cluster) (h : m ≠ n) :
    (s.setCluster n x).cluster m = s.cluster m := by
  simp [State.cluster, look_put_other _ _ _ _ h]

end Sys2Proof.Machine
end

