-- ==== Sys2Proof/Laws/Memory.lean ====
section
/-! SUPPORT. Laws/Memory.lean: what runs of bytes read after a write, what the write of ordinary memory leaves, and that the CHECK of a save
slot is right once it has been computed (18 R362). -/

namespace Sys2Proof.Machine

/-- Bytes that read alike one by one read alike. -/
theorem Memory.bytes_congr (m m' : Memory) (a n : Nat) (h : ∀ i, i < n → m.get (a + i) = m'.get (a + i)) : m.bytes a n = m'.bytes a n := by
  induction n generalizing a with
  | zero => rfl
  | succ n ih =>
    have h0 : m.get a = m'.get a := h 0 (Nat.zero_lt_succ n)
    have hs : m.bytes (a + 1) n = m'.bytes (a + 1) n := ih (a + 1) (fun i hi => by
      have := h (i + 1) (Nat.succ_lt_succ hi)
      rwa [show a + (i + 1) = a + 1 + i by omega] at this)
    simp only [Memory.bytes, h0, hs]

/-- Bytes outside those written read as before. -/
theorem Memory.bytes_setBytes_other (m : Memory) (a c n : Nat) (bs : List Byte) (h : c + n ≤ a ∨ a + bs.length ≤ c) :
    (m.setBytes a bs).bytes c n = m.bytes c n :=
  Memory.bytes_congr _ _ _ _ (fun i hi => Memory.get_setBytes_other _ _ _ _ (by omega))

/-- Bytes just written read back. -/
theorem Memory.bytes_setBytes_same (m : Memory) (a : Nat) (bs : List Byte) : (m.setBytes a bs).bytes a bs.length = bs := by
  induction bs generalizing m a with
  | nil => rfl
  | cons b bs ih =>
    have h0 : ((m.set a b).setBytes (a + 1) bs).get a = b := by
      rw [Memory.get_setBytes_other _ _ _ _ (by omega), Memory.get_set_same]
    have hs := ih (m.set a b) (a + 1)
    rw [Memory.setBytes, List.length_cons, Memory.bytes, h0, hs]

/-- A write of ordinary memory (12 R252) changes its bytes and one stack's records. -/
@[simp] theorem State.memWrite_mem (s : State) (o pa : Nat) (bs : List Byte) : (s.memWrite o pa bs).mem = s.mem.setBytes pa bs := rfl
@[simp] theorem State.memWrite_cores (s : State) (o pa : Nat) (bs : List Byte) : (s.memWrite o pa bs).cores = s.cores := rfl
@[simp] theorem State.memWrite_clusters (s : State) (o pa : Nat) (bs : List Byte) : (s.memWrite o pa bs).clusters = s.clusters := rfl
@[simp] theorem State.memWrite_hxd (s : State) (o pa : Nat) (bs : List Byte) : (s.memWrite o pa bs).hxd = s.hxd := rfl
@[simp] theorem State.memWrite_reqs (s : State) (o pa : Nat) (bs : List Byte) : (s.memWrite o pa bs).reqs = s.reqs := rfl
@[simp] theorem State.memWrite_inflight (s : State) (o pa : Nat) (bs : List Byte) : (s.memWrite o pa bs).inflight = s.inflight := rfl

/-- A write of ordinary memory keeps every canonical form. -/
theorem State.memWrite_memOk (s : State) (o pa : Nat) (bs : List Byte) (h : MemOk s) : MemOk (s.memWrite o pa bs) :=
  ⟨Memory.wf_setBytes _ _ _ h.1, h.2⟩

/-- What a save slot's CHECK is computed from does not contain it. -/
theorem State.slotSeal_bytes (s : State) (slot off n : Nat) (h : off + n ≤ 8 ∨ 16 ≤ off) :
    (s.slotSeal slot).mem.bytes (s.slotPa slot + off) n = s.mem.bytes (s.slotPa slot + off) n := by
  unfold State.slotSeal State.slotWrite
  split
  · rw [State.memWrite_mem]
    exact Memory.bytes_setBytes_other _ _ _ _ _ (by rw [toBytes_length]; omega)
  · rfl

/-- A slot whose CHECK has just been computed passes its check (18 R362). -/
theorem State.slotOk_slotSeal (s : State) (slot : Nat) (h : region (s.slotPa slot + 8) = .ordinary) : (s.slotSeal slot).slotOk slot = true := by
  have hp : (s.slotSeal slot).slotPa slot = s.slotPa slot := by
    unfold State.slotSeal State.slotWrite; split <;> rfl
  have hc : (s.slotSeal slot).slotCrc slot 0x10 0x8FFF0 = s.slotCrc slot 0x10 0x8FFF0 := by
    unfold State.slotCrc; rw [hp, State.slotSeal_bytes _ _ _ _ (.inr (Nat.le_refl 16))]
  have hb : (s.slotSeal slot).mem.bytes (s.slotPa slot + 8) 8 = toBytes 8 (s.slotCrc slot 0x10 0x8FFF0) := by
    have := Memory.bytes_setBytes_same s.mem (s.slotPa slot + 8) (toBytes 8 (s.slotCrc slot 0x10 0x8FFF0))
    rw [toBytes_length] at this
    unfold State.slotSeal State.slotWrite
    rw [if_pos h, State.memWrite_mem, this]
  have hl : s.slotCrc slot 0x10 0x8FFF0 < 2 ^ (8 * 8) := Nat.lt_of_lt_of_le (BitVec.isLt _) (Nat.pow_le_pow_right (by decide) (by decide))
  unfold State.slotOk
  rw [hp, hc, Memory.nat, hb, leNat_toBytes, Nat.mod_eq_of_lt hl]
  exact beq_self_eq_true _

end Sys2Proof.Machine
end

