-- ==== Sys2Proof/Laws/Slots.lean ====
section
/-! SUPPORT. Laws/Slots.lean: what the shared operations of the slots can do: a slot instruction is `runSlot` of its effect, and each shared
operation's one answer. -/

namespace Sys2Proof.Machine

/-- A slot instruction alone is its effect, run. -/
theorem exec_slot (i : Instr) (s : State) (h : (slotOf i).isSome = true) : exec i s = runSlot (slotEff i s) s := by
  cases i
  all_goals first
    | (exfalso; exact Bool.false_ne_true h)
    | exact rfl

/-- What a slot that takes effect answers. -/
theorem exec_ok (i : Instr) (s t : State) (h : (slotOf i).isSome = true) (he : slotEff i s = .ok t) : exec i s = .next t := by
  rw [exec_slot i s h, he]; rfl

/-- What a slot that traps answers. -/
theorem exec_trap (i : Instr) (s : State) (tr : TrapInfo) (h : (slotOf i).isSome = true) (he : slotEff i s = .error (.trap tr)) :
    exec i s = .next (takeTrap s tr none) := by
  rw [exec_slot i s h, he]; rfl

/-- No slot stops the machine: every outcome is a next state. -/
theorem runSlot_next (e : Except Stop State) (s : State) : ∃ t, runSlot e s = .next t := by
  match e with
  | .ok t => exact ⟨t, rfl⟩
  | .error (.trap t) => exact ⟨_, rfl⟩
  | .error (.trapSt t r) => exact ⟨_, rfl⟩
  | .error (.rewind pa) => exact ⟨_, rfl⟩
  | .error (.stall b) => exact ⟨_, rfl⟩
  | .error (.xlat e va) => exact ⟨_, rfl⟩

/-- A queued scalar result changes only the core, and there only what is queued. -/
theorem giveS_queues (s : State) (h : SHead) (n : Nat) (l : List Nat) (x : Word) : OnlyQueued s.me (s.giveS h n l x).me := by
  simp only [State.giveS, State.me_upMe, OnlyQueued]; exact ⟨rfl, fun _ => rfl⟩

end Sys2Proof.Machine
end

