-- ==== Sys2Proof/Tests/Slice0.lean ====
section
/-! SUPPORT. Slice0.lean: tests of the model. Expected results come from the spec: its encoding tables, its worked examples, or a
calculation by hand from its rules. The witnesses show, for each statement with hypotheses, a state and operands that meet them. -/

namespace Sys2Proof.Tests

open Sys2Proof Sys2Proof.Machine

set_option Elab.async false

/-! ### Well-formedness: for each check a term that it refuses -/

/-- A scalar head, a vector head, and operands made with them. -/
def sh : SHead := ⟨.a, 5, false⟩
/-- See `sh`. -/
def vh : VHead := ⟨.a, 0, 7, false⟩
/-- S2 and S3 to S5. -/
def so2 : SOp2 := ⟨sh, .reg 2 false, .reg 3 false⟩
/-- V1 and V2 of a type, to V7. -/
def vo2 (t : ElemType) : VOp2 := ⟨vh, t, .reg 1 false, .reg 2 false⟩
/-- V1 of a type, to V7. -/
def vo1 (t : ElemType) : VOp1 := ⟨vh, t, .reg 1 false⟩
/-- V1 and V2 of a type with a rounding mode. -/
def voR (t : ElemType) (m : RMode) : VOpR := ⟨vh, t, m, .reg 1 false, .reg 2 false⟩
/-- V1 of a type and S2. -/
def voS (t : ElemType) : VOpS := ⟨vh, t, .reg 1 false, .reg 2 false⟩
/-- A reduction of V1 under P0. -/
def vred (t : ElemType) (m : RMode) (nan : Bool) : VRed := ⟨vh, t, m, nan, .reg 1 false, 0⟩
/-- A matrix operation. -/
def mm (acb : BitVec 7) (t : ElemType) (ss : Option (BitVec 6)) (kn : BitVec 6) : MmaOp := ⟨4, 5, acb, t, false, false, ss, kn⟩

/-- 06 R109 to R116, R122 to R125: one refused term for each check of `Instr.wf`. -/
theorem test_wf_refuses : ([.loopImm 0 1, .loopReg 0 5, .vadd (voR .i32 .rne), .vmin (vo2 .t8) false, .vabs (vo1 .n8), .vsqrt (vo1 .i8) .rne,
    .vcvt (vo1 .i8) .i8 .rne, .vcvt (vo1 .fp16) .e4m3 .rne, .vcvt (vo1 .i8) .i16 .rtz, .vcvt (vo1 .t6) .fp32 .rne, .vqnt (voR .fp32 .rne),
    .vdqnt (voR .i8 .rne), .vsrnd (voS .fp32), .vamax (vo1 .bf16) true 0, .vamax (vo1 .fp32) false 0, .viadd (vo2 .fp32) .wrap,
    .viadd (vo2 .i8) .hi, .vimac (vo2 .i8) .hi, .vimul (vo2 .i64) .wrap, .vshl (vo1 .bf16) (.scal (.reg 1 false)), .vimin (vo2 .e5m2)] : List Instr).all
    (fun i => !i.wf) = true := by decide +kernel

/-- See `test_wf_refuses`. -/
theorem test_wf_refuses_more : ([.vcmp .a 0 1 false .i8 .eq (.reg 1 false) (.reg 2 false), .vcmp .a 0 1 false .i32 .un (.reg 1 false) (.reg 2 false),
    .vbcst vh .i64 (.reg 1 false), .vsplt (voS .n64), .vpack (vo1 .fp32) 0, .vpack (vo1 .bf16) 2, .vunpk (vo1 .n32) 0,
    .vextr .a 1 false .i64 (.reg 1 false) (.reg 1 false), .vins vh .n64 (.reg 1 false) (.reg 1 false), .vrsum (vred .bf16 .rne false),
    .vrsum (vred .i32 .rtz false), .vscan (vred .fp32 .rne true), .vrmax (vred .fp32 .rtz false), .vrmin (vred .n32 .rne true),
    .mma (mm 2 .bf16 none 0), .mma (mm 4 .bf16 none 1), .mma (mm 4 .bf16 (some 6) 0), .mmal (mm 4 .t6 none 3), .mmal (mm 4 .fp16 none 3),
    .azero 127 1, .anorm 100 28, .afree 1 127, .ard 1 0 0 (.conv .t8), .awr 1 0 0 (.conv .i32), .awr 1 0 0 .head] : List Instr).all
    (fun i => !i.wf) = true := by decide +kernel

/-- See `test_wf_refuses`. -/
theorem test_wf_refuses_memory : ([.ld ⟨1, 2, 3, true, false, 0⟩, .ld ⟨1, 2, 0, false, true, 0⟩, .st ⟨1, 2, 0, true, false, 0⟩, .vld ⟨1, 2, true, 0, 0⟩,
    .vld ⟨1, 2, false, 1, 0⟩, .vlds ⟨1, 2, true, 0, 3, 0⟩, .spl (.s 1) 4, .sps (.v 1) 64, .gld ⟨.s 1, 2, false, 3, true, 0⟩,
    .gld ⟨.v 1, 2, false, 1, false, 0⟩, .gld ⟨.s 1, 2, true, 0, false, 0⟩, .gst ⟨.s 1, 2, false, 0, true, 0⟩, .atmin ⟨1, 2, 3, 4, true, false⟩,
    .atadd ⟨1, 2, 3, 0, true, true⟩, .atswp ⟨1, 2, 3, 1, true, false⟩, .atcas ⟨1, 2, 3, 4, true, true⟩, .phase (.sub 6 0), .phase (.sub 0 7),
    .evsig 1 2 .package, .rdix sh 6] : List Instr).all (fun i => !i.wf) = true := by decide +kernel

/-- The nearest terms that the checks accept. -/
theorem test_wf_accepts : ([.loopImm 1 0, .vadd (voR .fp16 .rup), .vcvt (vo1 .bf16) .fp32 .rtz, .vcvt (vo1 .i16) .i8 .rne, .vqnt (voR .t6 .rne),
    .vsrnd (voS .e5m2), .vamax (vo1 .fp32) true 0, .vimul (vo2 .n16) .hi, .vcmp .a 0 1 false .fp32 .un (.reg 1 false) (.reg 2 false),
    .vpack (vo1 .bf16) 1, .vpack (vo1 .i8) 3, .vrsum (vred .fp32 .rtz false), .vrmax (vred .fp32 .rne true), .mmal (mm 124 .t6 (some 6) 63),
    .azero 0 127, .ard 1 127 7 .head, .awr 1 0 0 .rawhi, .ld ⟨1, 2, 2, true, false, 0⟩, .vst ⟨1, 2, true, 15, 0⟩, .spl (.v 1) 128,
    .gst ⟨.s 1, 2, true, 3, false, 0⟩, .atcas ⟨1, 2, 3, 4, true, false⟩, .phase (.sub 5 6), .evsig 1 2 (.sub 5 6), .rdix sh 5] : List Instr).all
    Instr.wf = true := by decide +kernel

/-! ### Words of the spec's own examples, and words written out from its encoding tables -/

/-- 06, the bundle worked out after R126, and 08, the forms of R155 and the constant built with LIH. -/
theorem test_decode_bundle : decodeSlot 1 0x06_2814_0080 = some (.addi ⟨⟨.a, 5, false⟩, .reg 5 false, 128⟩) ∧
    decodeSlot 3 0x040_0148_0220_0D20 = some (.vfma ⟨⟨.a, 0, 10, false⟩, .fp32, .rne, .reg 4 true, .latch 3⟩) ∧
    decodeSlot 0 0x0400_0120 = some (.j 0x120) ∧ decodeSlot 0 0x0A60_0040 = some (.jf true 3 0x40) ∧
    decodeSlot 0 0x1A00_5010 = some (.loopImm 5 16) ∧ decodeSlot 1 0x34_381C_0100 = some (.lih ⟨⟨.a, 7, false⟩, .reg 7 false, 256⟩) := by
  decide +kernel

/-- 18 and 19: TRAP 0x0042, TFLD S5, 64 and TFST 954, S7. -/
theorem test_decode_trap : decodeTableWord 32 0x3200_0042 = some (.trap 0x42) ∧ decodeSlot 1 0x46_2800_0040 = some (.tfld .a 5 64) ∧
    decodeSlot 1 0x48_001C_03BA = some (.tfst .a 954 (.reg 7 false)) := by decide +kernel

/-- 09, Three encodings and the lines worked elsewhere in the chapter. -/
theorem test_decode_vector : decodeSlot 3 0x200_0288_0400_2540 = some (.vcvt ⟨⟨.a, 0, 20, false⟩, .bf16, .reg 8 true⟩ .fp32 .rne) ∧
    decodeSlot 3 0x414_0060_0080_0800 = some (.vsel ⟨.a, 4, 3, false⟩ (.reg 1 false) (.reg 2 false)) ∧
    decodeSlot 3 0x660_0040_0280_0000 = some (.pany .a 2 false 5) ∧
    decodeSlot 3 0x010_00E0_0300_1120 = some (.vadd ⟨⟨.a, 0, 7, false⟩, .fp32, .rne, .reg 6 false, .reg 4 false⟩) ∧
    decodeSlot 3 0x210_00E0_0280_1980 = some (.vqnt ⟨⟨.a, 0, 7, false⟩, .e4m3, .rne, .reg 5 false, .reg 6 false⟩) ∧
    decodeSlot 3 0x240_00C0_0280_0180 = some (.vamax ⟨⟨.a, 0, 6, false⟩, .e4m3, .reg 5 false⟩ false 0) := by decide +kernel

/-- 10, Some encodings. -/
theorem test_decode_matrix : decodeSlot 5 0x0441_4428_0000 = some (.mma ⟨4, 5, 8, .bf16, false, false, none, 0⟩) ∧
    decodeSlot 5 0x0841_4040_8C78 = some (.mmal ⟨4, 5, 0, .t6, false, false, some 6, 15⟩) ∧
    decodeSlot 5 0x0C40_3000_0000 = some (.azero 8 3) ∧ decodeSlot 5 0x1403_8969_0000 = some (.ard 7 9 3 (.conv .fp32)) := by decide +kernel

/-- 13 to 22: lines of the memory slot. -/
theorem test_decode_memory : decodeSlot 6 0x0C00_8800_0000 = some (.vld ⟨1, 4, false, 0, 0⟩) ∧
    decodeSlot 6 0x0C02_1E00_018B = some (.vld ⟨4, 15, false, 0, 395⟩) ∧
    decodeSlot 6 0x2605_0400_0100 = some (.gld ⟨.v 20, 4, false, 0, false, 256⟩) ∧
    decodeSlot 6 0x2802_44EF_FFF8 = some (.gst ⟨.s 9, 4, true, 3, false, -8⟩) ∧
    decodeSlot 6 0x60D1_0000_0000 = some (.phase (.sub 2 1)) ∧ decodeSlot 6 0x6500_0000_0000 = some (.fence .copy .ls) := by decide +kernel

/-- 13, 16 and 22: lines of the asynchronous slot. -/
theorem test_decode_async : decodeSlot 7 0x09_4209_2800 = some (.cpys 20 8 9 10) ∧ decodeSlot 7 0x11_5140_0100 = some (.sladv 21 5 2) ∧
    decodeSlot 7 0x20_030D_0000 = some (.cntx 12 13) ∧ decodeSlot 7 0x24_02C1_0000 = some (.cnta 11 1) ∧
    decodeSlot 7 0x28_0146_00C9 = some (.evsig 5 6 (.sub 1 1)) ∧ decodeSlot 7 0x30_0100_0000 = some (.jdone 4) ∧
    decodeSlot 7 0x40_7209_0000 = some (.tagnew 7 8 9) ∧ decodeSlot 7 0x60_0040_0000 = some (.bkdone 1) ∧
    decodeSlot 7 0x65_4146_1C00 = some (.push 20 5 6 7) := by decide +kernel

/-- The words of the statement `DecodedWords`, which has no hypothesis, are these same fields; one reserved word of each slot is refused. -/
theorem test_decode_refuses : decodeSlot 0 0 = none ∧ decodeSlot 1 0 = none ∧ decodeSlot 3 0 = none ∧ decodeSlot 5 0 = none ∧
    decodeSlot 6 0 = none ∧ decodeSlot 7 0 = none ∧ decodeSlot 3 0x661_0040_0280_0000 = none ∧ decodeTableWord 32 0x3200_0042 ≠ none := by
  decide +kernel

/-- 08 R155: the encoder writes the same words. -/
theorem test_encode : encode (.trap 0x42) = 0x3200_0042 ∧ encode (.jf true 3 0x40) = 0x0A60_0040 ∧
    encode (.gst ⟨.s 9, 4, true, 3, false, -8⟩) = 0x2802_44EF_FFF8 ∧ encode (.push 20 5 6 7) = 0x65_4146_1C00 ∧
    encode (.mmal ⟨4, 5, 0, .t6, false, false, some 6, 15⟩) = 0x0841_4040_8C78 ∧
    encode (.vcvt ⟨⟨.a, 0, 20, false⟩, .bf16, .reg 8 true⟩ .fp32 .rne) = 0x200_0288_0400_2540 := by decide +kernel

/-- A launch of the four cores of cluster 0, running, whose record is at 8,192. -/
def wlaunch : Launch where
  state := .placed
  addr := 8192
  die := 0
  porttag := 0
  issuer := none
  req := 0
  recd := { parseRec [] with rect := 0x11, token := 9, levels := [(4, 0)] }
  header := []
  bounds := []
  windows := [⟨0x2_0000, 1, true⟩]
  jdone := none
  jwait := []
  prio := 1
  placedPrio := 1
  qtc := 0
  outTc := 0
  order := 3
  x0 := 0
  y0 := 0
  master := 0
  args := []
  points := 4
  given := 0
  ranges := []
  lost := []
  hand := []
  done := []
  nfin := 0
  flags := 0
  slots := []
  clusters := []
  resume := false
  onMesh := true
  code := 1
  failed := []
  acc := 0
  evict := none
/-- The same, not on the mesh. -/
def wlaunch0 : Launch := { wlaunch with onMesh := false }
/-- A core with its event bits. -/
def ws0 (e : BitVec 16) : State := { State.reset with cores := [(0, { Core.reset with ev := e })] }

/-! ### Worked examples of the spec, and cases calculated by hand from its rules -/

/-- The results queued by an instruction that takes effect. -/
def queued (i : Instr) (s : State) : List Vec :=
  match exec i s with
  | .next t => t.me.pend.map (fun p => p.val)
  | _ => []
/-- A state whose core has S1 to S3 and V1, V2 with values. -/
def tst (s : List (Nat × Word)) (v : List (Nat × Vec)) : State :=
  { State.reset with active := [0], cores := [(0, { Core.reset with phase := .run, rid := some 0, s := s, v := v })] }

/-- 08, Building a 64-bit constant: the third LIH. -/
theorem test_lih : queued (.lih ⟨⟨.a, 7, false⟩, .reg 7 false, 256⟩) (tst [(7, 0x10_0000)] []) = [0x40_0000_0100] := by decide +kernel

/-- 08 R167: ADD wraps; MULH of -1 and -1, MULHN of the same; 08 R168: SHRA of a negative number; 08 R170: CLZ and CTZ of 0. -/
theorem test_scalar : let s := tst [(1, 0xFFFF_FFFF_FFFF_FFFF), (2, 1), (3, 0xFFFF_FFFF_FFFF_FFFF)] []
    queued (.add ⟨sh, .reg 1 false, .reg 2 false⟩) s = [0] ∧ queued (.mulh ⟨sh, .reg 1 false, .reg 3 false⟩) s = [0] ∧
    queued (.mulhn ⟨sh, .reg 1 false, .reg 3 false⟩) s = [0xFFFF_FFFF_FFFF_FFFE] ∧
    queued (.shra ⟨sh, .reg 1 false, .imm 63⟩) s = [0xFFFF_FFFF_FFFF_FFFF] ∧ queued (.clz ⟨sh, .reg 0 false⟩) s = [64] ∧
    queued (.ctz ⟨sh, .reg 0 false⟩) s = [64] := by decide +kernel

/-- 08 R171: -1 is below 1 as a signed number and not as an unsigned one. -/
theorem test_cmp : let s := tst [(1, 0xFFFF_FFFF_FFFF_FFFF), (2, 1)] []
    queued (.cmp .a 1 false .lt (.reg 1 false) (.reg 2 false)) s = [1] ∧ queued (.cmp .a 1 false .ltn (.reg 1 false) (.reg 2 false)) s = [0] := by
  decide +kernel

/-- 08 R163, the table of WAITE: in cycle 140 the wait ends and E becomes 0. -/
theorem test_waite : ((ws0 6).waitDone 0 (.ev 6)).map (fun t => (t.core 0).ev) = some 0 ∧ ((ws0 2).waitDone 0 (.ev 6)).isNone = true := by decide +kernel

/-- 01, the core at (13, 42): die 43, cluster 2 of it. -/
theorem test_core_place : coreDie (coreAt 13 42) = 43 ∧ coreCluster (coreAt 13 42) = 43 * 8 + 2 := by decide +kernel

/-- 12, the address 0x112_3456_7890: stack 8, its offset, pseudo-channel 276, bank 42, granule 1,193,046. -/
theorem test_address : paStack 0x112_3456_7890 = 8 ∧ paOff 0x112_3456_7890 = 0x12_3456_7890 ∧ region 0x112_3456_7890 = .ordinary ∧
    bankOf 0x112_3456_7890 = 276 * 48 + 42 ∧ granule64 0x112_3456_7890 = 1193046 := by decide +kernel

/-- 02, the walk of a code stream of 28 halfwords. -/
theorem test_walk : walk 0 0 ([0, 3, 0xFFFF] ++ List.replicate 24 5 ++ [1]) = ([0, 1, 2, 27], none) := by decide +kernel

/-- 04, Quantising after a transpose: scale bytes, codes and stored values of the row quantisation. -/
theorem test_quantise : scaleByte .e4m3 (dec .fp32 0x43E0_0000) = 0x7F ∧ scaleByte .e4m3 (dec .fp32 0x3BC0_0000) = 0x6F ∧
    (quantElem .e4m3 .rne 0x43E0_0000 0x7F).1 = 0x7E ∧ (quantElem .e4m3 .rne 0x3C30_0000 0x7F).1 = 0x06 ∧ (quantElem .e4m3 .rne 0x3BC0_0000 0x6F).1 = 0x7C ∧
    (dequantElem .e4m3 .rne 0x06 0x7F).1 = 0x3C40_0000 ∧ (dequantElem .e4m3 .rne 0x7C 0x6F).1 = 0x3BC0_0000 := by decide +kernel

/-- The same, the column quantised again. -/
theorem test_quantise_column : scaleByte .e4m3 (dec .fp32 0x3C40_0000) = 0x70 ∧ (quantElem .e4m3 .rne 0x3C40_0000 0x70).1 = 0x7C ∧
    (quantElem .e4m3 .rne 0x3BC0_0000 0x70).1 = 0x74 := by decide +kernel

/-- 09, VSRND.BF16 of 1 + 3 × 2^-10: the random words at the threshold. -/
theorem test_vsrnd : (srndElem .bf16 0x5FFF_FFFF 0x3F80_6000).1 = 0x3F81 ∧ (srndElem .bf16 0x6000_0000 0x3F80_6000).1 = 0x3F80 := by decide +kernel

/-- Lane 0 is 2^24, lanes 8, 16 and 24 are 1. -/
def redV : Vec := vecOf (fun l => if l = 0 then 0x4B80_0000 else if l % 8 = 0 then 0x3F80_0000 else 0)
/-- 09, the sum of these lanes, all of them and without lane 24. -/
theorem test_vrsum : (redLane .fp32 0 (redTree (sumComb .fp32 .rne) 5 (laneOpts redV 0xFFFF_FFFF)).1).1 = 0x4B80_0001 ∧
    (redLane .fp32 0 (redTree (sumComb .fp32 .rne) 5 (laneOpts redV 0xFEFF_FFFF)).1).1 = 0x4B80_0000 := by decide +kernel

/-- 10, the element 0x7D80_0100_0000_0000: 2^40 units of 2^-50, which ARD.FP32 reads as 2^-10. -/
theorem test_ard : accOf 0x7D80_0100_0000_0000 = .fin (2 ^ 40) (-50) ∧ (roundTo fmt32 .rne (accVal 0x7D80_0100_0000_0000)).1 = 0x3A80_0000 := by
  decide +kernel

/-- 05, an empty mesh: A at its first position, B at (16, 0) beside it, C below them. -/
theorem test_placement : let a : Launch := { wlaunch0 with recd := { parseRec [] with rect := 0x34 } }
    let s : State := { State.reset with launches := [(0, { a with onMesh := true })] }
    s.freePos { wlaunch0 with recd := { parseRec [] with rect := 0x12 } } [] = some (16, 0) ∧
    s.freePos { wlaunch0 with recd := { parseRec [] with rect := 0x35 } } [] = some (0, 8) ∧ State.reset.freePos a [] = some (0, 0) := by decide +kernel

/-- 06 R105, 08 R165, R166: HALT in kernel code traps ILLOP with detail word 0x0E: with no monitor on the die the context ends. -/
theorem test_halt : (match exec .halt (tst [] []) with
    | .next t => decide ((t.core 0).phase = .ended) && t.hxd.laneH.waiting.map (fun w => (w.w0.toNat % 256, w.w1.toNat % 2 ^ 32)) == [(1, 0x0E)]
    | _ => false) = true := by decide +kernel

/-- Log 2: the first step after reset runs the instruction that `withFetchWord` placed: EXIT begins its drain. -/
theorem test_first_step : (match step (State.reset.withFetchWord 32 0x2000_0000) with
    | .next t => decide ((t.core 0).phase = .drain .exit)
    | _ => false) = true := by decide +kernel

/-! ### Witnesses: states that meet the hypotheses of the statements -/

/-- A core that runs a context. -/
def wk : Core := { Core.reset with phase := .run, rid := some 0, ic := 20 }
/-- A state in which core c has the context k and the turn. -/
def ws (c : Nat) (k : Core) : State := { State.reset with cur := c, active := [c], cores := [(c, k)] }
/-- A result of register d, issued in cycle 19, due in 23. -/
def wp (d : Dest) : Pend := ⟨23, 19, 0, d, 9, none, 0, false, .ready, 0⟩
/-- A monitor that froze a kernel with nothing under way. -/
def wm : Mon := ⟨5, [], none, 1, none, [], 0, .run, 0, 0, false, [], 0, 0, [], none, none⟩
/-- S1 to S4, V1, V2, P1 to P3 and F1 with values; F2 false. -/
def wr : Core := { wk with
  s := [(1, 5), (2, 0xFFFF_FFFF_FFFF_FFFF), (3, 64), (4, 4096)], v := [(1, 0x3F80_0000), (2, 0x4000_0000)]
  p := [(1, 0), (2, 0xFFFF_FFFF), (3, 0xF0)], f := [(1, true), (2, false)] }
/-- See `wr`. -/
def wrs : State := ws 0 wr

/-- RegisterReads: an ordinary read in fast mode and, with nothing pending, in strict mode. -/
theorem wit_RegisterReads : (1 : Nat) ≠ 0 ∧ codeS 63 ∉ wk.bad ∧ wk.strictNow = false ∧ codeS 63 ∉ wk.dead ∧ codeV 2047 ∉ wk.bad ∧
    codeV 2047 ∉ wk.dead ∧ codeP 15 ∉ wk.dead ∧ codeF 7 ∉ wk.dead ∧ codeP 15 ∉ wk.bad ∧ codeF 7 ∉ wk.bad ∧
    { wk with strict := true }.strictNow = true ∧ { wk with strict := true }.pendingReg (codeS 63) = false := by
  and_intros <;> first | decide +kernel | rfl

/-- RegisterReads: a dead register in both modes, and a pending one in strict mode. -/
theorem wit_RegisterReads_dead : codeS 1 ∈ { wk with dead := [1] }.dead ∧ codeS 1 ∉ wk.bad ∧
    { wk with strict := true, dead := [1] }.pendingReg (codeS 1) = false ∧
    { wk with strict := true, pend := [wp (.s 1)] }.pendingReg (codeS 1) = true := by
  and_intros <;> first | decide +kernel | rfl

/-- ScalarTwoSources, ScalarSelectCompare: two sources read, and a flag. -/
theorem wit_ScalarTwoSources : wrs.rdS2 ⟨⟨.a, 5, false⟩, .reg 1 true, .reg 2 false⟩ = .ok (5, 0xFFFF_FFFF_FFFF_FFFF) ∧
    wrs.rdS2 ⟨⟨.b, 0, true⟩, .reg 0 false, .reg 63 false⟩ = .ok (0, 0) ∧ wrs.rdF 11 (1 : BitVec 3).toNat = .ok true ∧
    wrs.rdSSrc 9 (.reg 1 false) = .ok 5 ∧ wrs.rdSSrc 10 (.reg 2 false) = .ok 0xFFFF_FFFF_FFFF_FFFF := by
  and_intros <;> first | decide +kernel | rfl

/-- ScalarShifts: an immediate amount of 63 and an amount of 64 in a register, which is taken as 0. -/
theorem wit_ScalarShifts : wrs.rdSSrc 9 (.reg 2 false) = .ok 0xFFFF_FFFF_FFFF_FFFF ∧
    (∃ m, ShAmt.imm 63 = .imm m ∧ 63 = m.toNat ∧ ([] : List Nat) = sDying (.reg 2 false)) ∧
    (∃ r x, ShAmt.reg (.reg 3 true) = .reg r ∧ wrs.rdSSrc 10 r = .ok x ∧ 0 = x.toNat % 64 ∧
      ([3] : List Nat) = sDying (.reg 2 false) ++ sDying r) :=
  ⟨rfl, ⟨63, rfl, rfl, rfl⟩, ⟨.reg 3 true, 64, rfl, rfl, rfl, rfl⟩⟩

/-- ScalarReadOuts: level 0 of a stack of one, the level above it, and cores at the ends of their ranges. -/
theorem wit_ScalarReadOuts : (ws 2047 { wk with loops := [⟨3, 9, 1, 2⟩] }).me.loops[(0 : BitVec 3).toNat]? = some ⟨3, 9, 1, 2⟩ ∧
    (ws 2047 { wk with loops := [⟨3, 9, 1, 2⟩] }).me.loops.length ≤ (1 : BitVec 3).toNat ∧ (ws 2047 wk).cur < 2048 ∧
    2048 ≤ (ws 2048 wk).cur := by
  and_intros <;> first | decide +kernel | rfl

/-- SystemRegisters: the numbers at the ends of the ranges, and a readable source. -/
theorem wit_SystemRegisters : 8 < (9 : BitVec 10).toNat ∧ 2 ≤ (2 : BitVec 10).toNat ∧ (8 : BitVec 10).toNat ≤ 8 ∧
    (1 : BitVec 10).toNat < 2 ∧ wrs.rdSSrc 9 (.reg 1 false) = .ok 5 ∧ (5 : Nat) ∉ [2, 3, 4, 8] := by
  and_intros <;> first | decide +kernel | rfl

/-- FrameWords: in the monitor, in kernel code, and the words at the ends of the reserved ranges. -/
theorem wit_FrameWords : (ws 0 { wr with mon := some wm }).me.mon.isSome = true ∧ wrs.me.mon = none ∧
    (ws 0 { wr with mon := some wm }).rdSSrc 9 (.reg 1 false) = .ok 5 ∧
    [13, 16, 117, 255].all tfReserved = true ∧ ([12, 17, 116, 256].any (fun w => tfReserved w)) = false := by
  and_intros <;> first | decide +kernel | rfl

/-- LandWritesDestination: a result for each kind of register. -/
theorem wit_LandWritesDestination : (∃ n, (wp (.s 63)).dest = .s n ∧ n ≠ 0) ∧ (∃ n, (wp (.v 0)).dest = .v n) ∧
    (∃ n, (wp (.p 1)).dest = .p n ∧ n ≠ 0) ∧ (∃ n, (wp (.f 7)).dest = .f n ∧ n ≠ 0) ∧ (∀ m, (wp (.s 63)).dest = .s m → m.toNat ≠ 0) := by
  refine ⟨⟨63, rfl, by decide⟩, ⟨0, rfl⟩, ⟨1, rfl, by decide⟩, ⟨7, rfl, by decide⟩, ?_⟩
  intro m h; cases h; decide

/-- SlotOutcomes: a slot for each outcome: an effect, a precise trap, a rewind and a stall. -/
theorem wit_SlotOutcomes : (slotOf (.rdtc sh)).isSome = true ∧ (∃ t, slotEff (.rdtc sh) wrs = .ok t) ∧
    slotEff .halt wrs = .error (.trap ⟨.illop, 0x0E, 0⟩) ∧
    slotEff (.mov ⟨sh, .reg 1 false⟩) (ws 0 { wr with bad := [1] }) = .error (.rewind 0) :=
  ⟨rfl, ⟨_, rfl⟩, rfl, rfl⟩

/-- StepRunsTheBundle: the state in which the next step runs EXIT, alone in its bundle. -/
def wb : State := (ws 0 wk).withFetchWord 32 0x2000_0000

/-- StepRunsTheBundle: its hypotheses, and the slot that its bundle holds. -/
theorem wit_StepRunsTheBundle : wb.agenda = [] ∧ wb.turn = false ∧ wb.engs = [] ∧ wb.active.contains wb.cur = true ∧ Quiet wb.me ∧
    wb.me.missing (oneBundle 0x2000_0000) wb.me.pos = none ∧ wb.codeOf wb.me = some (oneBundle 0x2000_0000) ∧ wb.me.mon = none ∧ wb.me.window = false ∧
    fetch (oneBundle 0x2000_0000) wb.me.nmv wb.me.pos = .ok (BitVec.ofNat 384 (2 ^ 375 + 2 ^ 336 * 0x2000_0000), 1) ∧
    bundleSlots (BitVec.ofNat 384 (2 ^ 375 + 2 ^ 336 * 0x2000_0000)) = [(0, .exit)] ∧
    bundleSeam (BitVec.ofNat 384 (2 ^ 375 + 2 ^ 336 * 0x2000_0000)) = false := by
  and_intros <;> first | decide +kernel | rfl

/-- StepRunsTheBundle: the core after the bundle's fetch, as the statement has it. -/
def wb1 : State :=
  let s0 : State := ({ wb with turn := !wb.turn, fresh := wb.fresh + 1 }.upCore 0 (fun k => { k with stall := .none })).loopTest 0
  s0.upCore 0 (fun k => { k.landAll with len := 1, prof := k.defprof, br := .none, bound := [], stitchOp := none })

/-- StepRunsTheBundle: what is left of its hypotheses. -/
theorem wit_StepRunsTheBundle_slots : bundleProf (BitVec.ofNat 384 (2 ^ 375 + 2 ^ 336 * 0x2000_0000)) = 0 ∧
    overfillOf [(0, .exit)] wb1 0 = .fits ∧ (∃ s2, runSlots [(0, .exit)] wb1 = .ok s2) ∧ (slotOf .exit).isSome = true :=
  ⟨by decide +kernel, by decide +kernel, ⟨_, rfl⟩, rfl⟩

/-- A code copy of eight halfwords, each a pattern bundle's start. -/
def wx : Code := { oneBundle 0 with hw := List.replicate 8 0, starts := List.range 8 }

/-- JumpsAndLoops: flags and predicates for each branch, stacks at their limits, and targets inside the code. -/
theorem wit_Jumps : wrs.rdF 1 (1 : BitVec 3).toNat = .ok true ∧ wrs.rdF 1 (2 : BitVec 3).toNat = .ok false ∧
    wrs.rdP 1 (0 : BitVec 4).toNat = .ok 0xFFFF_FFFF ∧ wrs.rdP 1 (1 : BitVec 4).toNat = .ok 0 ∧ wrs.rdP 1 (3 : BitVec 4).toNat = .ok 0xF0 ∧
    (ws 0 { wk with ras := [1, 2, 3, 4, 5, 6, 7] }).me.ras.length < 8 ∧ 8 ≤ (ws 0 { wk with ras := [1, 2, 3, 4, 5, 6, 7, 0] }).me.ras.length ∧
    (ws 0 { wk with ras := [1, 7] }).me.ras = [1] ++ [7] ∧ wx.targetOk 7 = true ∧ wx.targetOk 8 = false ∧ wrs.me.ras = [] := by
  and_intros <;> first | decide +kernel | rfl

/-- JumpsAndLoops: the bodies of LOOP, and loops that end at h, elsewhere, and are declared. -/
theorem wit_Loops : ((0 : BitVec 12).setWidth 32 : BitVec 32) = 0 ∧ wx.targetOk (wx.nextPos (wrs.me.pos + (6 : BitVec 13).toNat)) = true ∧
    wrs.me.loops.length < 6 ∧ 6 ≤ (ws 0 { wk with loops := List.replicate 6 ⟨0, 2, 1, 5⟩ }).me.loops.length ∧ wrs.rdS 1 (2 : BitVec 6).toNat = .ok 0xFFFF_FFFF_FFFF_FFFF ∧
    ((0xFFFF_FFFF_FFFF_FFFF : Word).setWidth 32 : BitVec 32) ≠ 0 ∧ (ws 0 { wk with loops := [⟨0, 2, 1, 5⟩] }).me.loops = [] ++ [⟨0, 2, 1, 5⟩] ∧
    (ws 0 { wk with loops := [⟨0, 2, 1, 5⟩] }).me.levels ≤ 0 ∧ wx.targetOk (wx.nextPos 5) = true ∧
    (ws 0 { wk with loops := [⟨0, 2, 1, 5⟩], ldecl := 1 }).me.loops.length ≤ (ws 0 { wk with loops := [⟨0, 2, 1, 5⟩], ldecl := 1 }).me.levels ∧
    (⟨0, 2, 1, 5⟩ : LoopEnt).ix.toNat + 1 < (⟨0, 2, 1, 5⟩ : LoopEnt).count.toNat ∧
    (⟨1, 2, 1, 5⟩ : LoopEnt).count.toNat ≤ (⟨1, 2, 1, 5⟩ : LoopEnt).ix.toNat + 1 := by
  and_intros <;> first | decide +kernel | rfl

/-- A state in which core 0 of launch 0 runs k, address 4,096 is translated to itself, and a counter stands there with COUNT 3. -/
def wg (k : Core) : State :=
  let e : XEnt := ⟨4096, some ⟨0, 2 ^ 40, 0, true, true⟩⟩
  { ws 0 k with xcache := [(engKey (.core 0), [e]), (engKey (.copy 0), [e]), (engKey (.rbd 0), [e])], iommu := [⟨0, 2 ^ 40, 0, true, true⟩]
                mem := (Memory.setNat [] 4096 8 3).setNat 4104 8 (2 ^ 63 + 3) }

/-- TaskControl: banks held, a counter that translates, an unaligned one. -/
theorem wit_TaskControl : wrs.me.alloc = [] ∧ (ws 0 { wk with alloc := [3] }).me.alloc ≠ [] ∧ (wg wr).rdS 1 (4 : BitVec 6).toNat = .ok 4096 ∧
    (4096 : Word).toNat % 8 = 0 ∧ (wg wr).inTagged (wg wr).me (4096 : Word).toNat = false ∧
    (wg wr).xlate (engOf (wg wr).cur) (4096 : Word).toNat 0 .read = .ok 4096 ∧ (wg wr).rdS 1 (1 : BitVec 6).toNat = .ok 5 ∧
    (5 : Word).toNat % 8 ≠ 0 ∧ (wg wr).me.mon = none ∧ (ws 0 { wk with mon := some wm }).me.mon.isSome = true := by
  and_intros <;> first | decide +kernel | rfl

/-- WaitConditions: each wait's condition at its boundary. -/
theorem wit_WaitConditions : (wrs.waitDone 0 (.tc 0)).isSome = true ∧ (wrs.waitDone 0 (.tc 1)).isSome = false ∧
    ((ws 0 { wk with ev := 6 }).waitDone 0 (.ev 2)).isSome = true ∧ ((wg wk).waitDone 0 (.ctr 4096 (some 4096) 1)).isSome = true ∧
    ((wg wk).counter 4096).count = 3 ∧ ((wg wk).counter 4096).target = 3 := by decide +kernel

/-- PredicatedElements: the last element of each width, enabled and disabled. -/
theorem wit_PredicatedElements : (8 ∈ [8, 16, 32, 64] ∧ 127 < 1024 / 8) ∧ (64 ∈ [8, 16, 32, 64] ∧ 15 < 1024 / 64) ∧
    (0x8000_0000 : BitVec 32).getLsbD (127 * 8 / 32) = true ∧ (0x4000_0000 : BitVec 32).getLsbD (127 * 8 / 32) = false ∧
    (0x4000_0000 : BitVec 32).getLsbD (15 * 64 / 32) = true ∧ (0xBFFF_FFFF : BitVec 32).getLsbD (15 * 64 / 32) = false := by decide +kernel

/-- The vector statements: two sources and a lane predicate read, and a destination. -/
theorem wit_Vector : Reads2 wrs (vo2 .fp32).toVHead (.reg 1 false) (.reg 2 true) 0x3F80_0000 0x4000_0000 0xFFFF_FFFF ∧
    Reads1 wrs ⟨.b, 3, 0, true⟩ (.reg 1 true) 0x3F80_0000 0xF0 ∧ wrs.rdV (vIx .a) 1 = .ok 0x3F80_0000 ∧
    wrs.rdSSrc (vIx .a + 1) (.reg 1 false) = .ok 5 ∧ wrs.rdSSrc (vIx .a + 2) (.reg 2 false) = .ok 0xFFFF_FFFF_FFFF_FFFF ∧
    wrs.rdP (vIx .a + 2) (3 : BitVec 4).toNat = .ok 0xF0 ∧ wrs.rdP (vIx .a + 1) (1 : BitVec 4).toNat = .ok 0 ∧
    wrs.rdP (vIx .a + 2) (2 : BitVec 4).toNat = .ok 0xFFFF_FFFF ∧ wrs.rdP (vIx .a + 3) (0 : BitVec 4).toNat = .ok 0xFFFF_FFFF ∧
    wrs.rdVSrc (vIx .a + 1) (.reg 1 false) = .ok 0x3F80_0000 ∧ wrs.rdVSrc (vIx .a + 2) (.reg 2 false) = .ok 0x4000_0000 :=
  ⟨⟨rfl, rfl, rfl⟩, ⟨rfl, rfl⟩, rfl, rfl, rfl, rfl, rfl, rfl, rfl, rfl, rfl⟩

/-- VectorConvert: an NMV core whose code table is valid, and a compute core, which has none. -/
theorem wit_VectorConvert : (ws 2048 { wr with ctValid := true }).me.ctValid = true ∧ wrs.me.ctValid = false ∧
    ElemType.isFloat .bf16 = true ∧ (0xFFFF : Nat) < 2 ^ ElemType.width .bf16 := by decide +kernel

/-- SlotFrame: a scalar and a vector instruction that take effect. -/
theorem wit_SlotFrame : (isScalar (.rdtc sh) = true ∧ ∃ t, slotEff (.rdtc sh) wrs = .ok t) ∧
    isVector (.vmov vh (.reg 1 false)) = true ∧ ∃ t, slotEff (.vmov vh (.reg 1 false)) wrs = .ok t := ⟨⟨rfl, _, rfl⟩, rfl, _, rfl⟩

/-- A cluster whose slices are all SCRATCH. -/
def wcl : Cluster := { Cluster.reset with slices := (List.range 32).map (fun n => (n, ⟨.scratch, []⟩)) }
/-- A core that holds banks 4 to 8, with S1, S2 and S3 the addresses of matrix operands. -/
def wmk : Core := { wk with alloc := [4, 5, 6, 7, 8], quota := 16, s := [(4, 0), (5, 6291456), (6, 64), (7, 65), (8, 128)] }
/-- A state with that core and cluster. -/
def wms (k : Core) : State := { ws 0 k with clusters := [(0, wcl)] }
/-- The slices of `wcl` hold every byte of the window. -/
theorem wcl_scratch (a n : Nat) (h : a + n ≤ 0x180_0000) : InScratch wcl a n := by
  intro i hi
  have h1 : a + i < 0x180_0000 := by omega
  refine ⟨h1, ?_⟩
  have h2 : (a + i) / 786432 < 32 := by omega
  have h3 : ∀ m, m < 32 → (wcl.slice m).mode = .scratch := by decide +kernel
  exact h3 _ h2

/-- MatrixIssue: the operands of a matrix operation of 64 K-steps that passes every check, and its regions. -/
theorem wit_MatrixIssue : let s := wms wmk
    let o := mm 4 .t8 (some 6) 63
    s.rdS 41 o.as.toNat = .ok 0 ∧ s.rdS 42 o.bs.toNat = .ok 6291456 ∧ (∀ r, o.ss = some r → s.rdS 43 r.toNat = .ok 64) ∧
    (∀ j, j < 4 → o.acb.toNat + j ∈ s.me.alloc) ∧ (∀ m ∈ s.me.mx, m.iss + 8 * m.steps ≤ s.me.ic) ∧
    (∀ j, j < 4 → codeB (o.acb.toNat + j) ∉ s.me.bad ∧ (s.me.strictNow = false ∨ ∀ p ∈ s.me.bpend, p.bank = o.acb.toNat + j → s.me.ic ≤ p.iss)) ∧
    (0 % 128 = 0 ∧ InScratch (s.cluster (coreCluster s.cur)) 0 (4096 * 64)) ∧
    (6291456 % 128 = 0 ∧ InScratch (s.cluster (coreCluster s.cur)) 6291456 (4096 * 64)) ∧
    (64 % 64 = 0 ∧ InScratch (s.cluster (coreCluster s.cur)) 64 (256 * 64)) ∧
    ∀ g, g < 4 → ¬ ((0 < (g + 1) * 6291456 ∧ g * 6291456 < 0 + 4096 * 64) ∧
      (6291456 < (g + 1) * 6291456 ∧ g * 6291456 < 6291456 + 4096 * 64)) :=
  ⟨rfl, rfl, fun _ h => by cases h; rfl, by decide +kernel, by decide +kernel, by decide +kernel, ⟨rfl, wcl_scratch 0 _ (by decide)⟩,
    ⟨rfl, wcl_scratch 6291456 _ (by decide)⟩, ⟨rfl, wcl_scratch 64 _ (by decide)⟩, by omega⟩

/-- MatrixIssue: for each check an operand that fails it and passes those before it: a misaligned A, B and scales, a bank not held, a bank
group shared, and an engine that is busy. -/
theorem wit_MatrixIssue_traps : 65 % 128 ≠ 0 ∧ (wms wmk).rdS 41 7 = .ok 65 ∧ (wms wmk).rdS 42 6 = .ok 64 ∧ 64 % 128 ≠ 0 ∧
    (wms wmk).rdS 43 7 = .ok 65 ∧ 65 % 64 ≠ 0 ∧ (8 + 1 ∉ (wms wmk).me.alloc ∧ ∀ i, i < 1 → 8 + i ∈ (wms wmk).me.alloc) ∧
    ((0 < (0 + 1) * 6291456 ∧ 0 * 6291456 < 0 + 4096) ∧ (128 < (0 + 1) * 6291456 ∧ 0 * 6291456 < 128 + 4096)) ∧
    (20 : Nat) < 13 + 8 * 1 := by
  and_intros <;> first | decide +kernel | rfl

/-- Accumulators: banks held and readable, a row of results, the lowest place for four banks, none, and a busy engine. -/
theorem wit_Accumulators : (∀ j, j < 5 → 4 + j ∈ wmk.alloc) ∧ (∀ j, j < 5 → codeB (4 + j) ∉ wmk.bad ∧ (wmk.strictNow = false ∨ wmk.bankPending (4 + j) false = false)) ∧
    (∀ j, j < 5 → wmk.bankPending (4 + j) false = false) ∧ (wms wmk).rdV 41 (7 : BitVec 11).toNat = .ok 0 ∧ wmk.alloc.length + 4 ≤ wmk.quota ∧
    (0 + 4 ≤ 128 ∧ (4 % 4 = 0 → 0 % 4 = 0) ∧ ∀ j, j < 4 → 0 + j ∉ wmk.alloc) ∧ { wmk with quota := 8 }.quota < wmk.alloc.length + 4 ∧
    (∀ m ∈ wmk.mx, m.iss + 8 * m.steps ≤ wmk.ic) ∧ (4 + 5 ∉ wmk.alloc ∧ ∀ i, i < 5 → 4 + i ∈ wmk.alloc) := by
  and_intros <;> first | decide +kernel | rfl

/-- AccumulatorAddition: 10 R206: E = 1 and n = 2^53 - 1, to which 0 units more may be added and one unit overflows. -/
theorem wit_AccumulatorAddition : accOf (BitVec.ofNat 64 (2 ^ 54 + (2 ^ 53 - 2))) = .fin (2 ^ 53 - 2) (-551) ∧ (2 ^ 53 - 2 : Int) ≠ 0 ∧ (1 : Int) ≠ 0 ∧
    (-551 : Int) ≤ -551 ∧ (2 ^ 53 - 2 + 1 * 2 ^ ((-551 - -551 : Int)).toNat : Int) < 2 ^ 53 ∧
    (2 ^ 53 : Int) ≤ 2 ^ 53 - 2 + 2 * 2 ^ ((-551 - -551 : Int)).toNat := by decide +kernel

/-- ScratchLoads, ScratchStores, StoreThenLoad: addresses at the end of the scratch window, aligned and not. -/
def wls : State := wms { wk with s := [(1, 0x17F_FF80), (2, 0x17F_FFF8), (3, 4), (5, 0x17F_FFF9)], v := [(1, 7)], p := [(1, 5)] }
/-- The bytes of an access inside the window are scratch. -/
theorem wls_ok (a n : Nat) (h : a + n ≤ 0x180_0000) : ScratchOk wls a n :=
  ⟨fun h2 => absurd h2 (by decide), fun _ => wcl_scratch a n h⟩

/-- See `wls`: LD and ST of the last eight bytes, VLD and VST of the last 128, and what is unaligned. -/
theorem wit_Scratch : wls.rdS 49 (2 : BitVec 6).toNat = .ok 0x17F_FFF8 ∧ wls.rdS 50 (3 : BitVec 6).toNat = .ok 4 ∧
    (0x17F_FFF8 + (0 : BitVec 20).signExtend 64 : Word).toNat % 2 ^ (3 : BitVec 2).toNat = 0 ∧ ScratchOk wls 0x17F_FFF8 8 ∧
    (0x17F_FFF8 + (1 : BitVec 20).signExtend 64 : Word).toNat % 2 ^ (3 : BitVec 2).toNat ≠ 0 ∧
    wls.rdS 49 (1 : BitVec 6).toNat = .ok 0x17F_FF80 ∧ (0x17F_FF80 + (0 : BitVec 14).signExtend 64 * 128 : Word).toNat % 128 = 0 ∧
    ScratchOk wls 0x17F_FF80 128 ∧ (0x17F_FFF8 + (0 : BitVec 14).signExtend 64 * 128 : Word).toNat % 128 ≠ 0 ∧ wls.rdV 50 (1 : BitVec 11).toNat = .ok 7 ∧
    wls.rdP 51 (1 : BitVec 4).toNat = .ok 5 ∧ wls.fifoAt 0x17F_FF80 = none :=
  ⟨rfl, rfl, by decide +kernel, wls_ok _ _ (by decide), by decide +kernel, rfl, by decide +kernel, wls_ok _ _ (by decide), by decide +kernel, rfl, rfl,
    by decide +kernel⟩

/-- VLDS and VSTS with stride 4 from the last 128 bytes on: the addresses of the lanes. -/
def wlanes : List Word := (upFrom 0 32).map (fun l => 0x17F_FF80 + (0 : BitVec 14).signExtend 64 * 4 + BitVec.ofNat 64 l * 4)
/-- See `wlanes`. -/
theorem wlanes_ok : wlanes.all (fun x => decide (x.toNat + 4 ≤ 0x180_0000)) = true ∧
    wlanes.all (fun x => decide (wls.scratchSt x.toNat 4 = .ready)) = true ∧
    (0x17F_FF80 + (0 : BitVec 14).signExtend 64 * 4 : Word).toNat % 4 = 0 ∧ (4 : Word).toNat % 4 = 0 ∧
    wls.rdS 50 (3 : BitVec 6).toNat = .ok 4 := by
  and_intros <;> first | decide +kernel | rfl
/-- See `wlanes`. -/
theorem wit_Scratch_strided : (∀ x ∈ wlanes, ScratchOk wls x.toNat 4) ∧ ∀ x ∈ wlanes, wls.scratchSt x.toNat 4 = .ready :=
  ⟨fun x h => wls_ok _ _ (of_decide_eq_true (List.all_eq_true.mp wlanes_ok.1 x h)),
    fun x h => of_decide_eq_true (List.all_eq_true.mp wlanes_ok.2.1 x h)⟩

/-- ScratchLoads, ScratchStores: a FIFO slice with an entry of an earlier cycle, spill memory at and beyond its limit. -/
theorem wit_Scratch_fifo : let s : State := { wls with tc := 2, clusters := [(0, { Cluster.reset with slices := [(31, ⟨.fifo, [⟨5, false, 1, 0, 0⟩]⟩)] })] }
    (0x17F_FF80 : Nat) / 786432 = 31 ∧ isNmv s.cur = false ∧ (s.cluster 0).slice 31 = ⟨.fifo, [⟨5, false, 1, 0, 0⟩]⟩ ∧ (1 : Nat) < s.tc ∧
    s.fifoAt 0x17F_FF80 = some 31 ∧ (0x5F80 : BitVec 15).toNat + 128 ≤ 0x6000 ∧ (∀ u ∈ touchedUnits 0x5F80 128, u ∉ wk.badSpill) ∧
    0x6000 < (0x6000 : BitVec 15).toNat + 8 ∧ wls.rdSV 49 (.v 1) = .ok 7 := by
  and_intros <;> first | decide +kernel | rfl

/-- StoreThenLoad: the store of the last eight bytes takes effect. -/
theorem wit_StoreThenLoad : ∃ t, exec (.st ⟨3, 2, 3, false, false, 0⟩) wls = .next t := ⟨_, rfl⟩

/-- A core with addresses, a window of tag 5, a share of bucket 0, a sleeve, and a launch on its cluster. -/
def wgk : Core := { wr with code := 1, s := [(1, 5), (2, 0xFFFF_FFFF_FFFF_FFFF), (3, 64), (4, 4096), (5, 0x2_0000), (6, 3)], ctag := 5
                            share := none, sleeves := [(2, ⟨0, 0, 0, 128, 128, 4, 8, 1, 1, 4, [1], false, []⟩)] }
/-- The state with that core and launch, where every address below 2^40 is translated to itself and tag 5 is LIVE, tag 6 its child. -/
def wgs (k : Core) : State := { wg k with
  launches := [(0, wlaunch)], hxd := { Hxd.reset with tags := [(5, ⟨.live, 1, 0, 0, 1⟩), (6, ⟨.live, 2, 5, 0, 1⟩)] }
  xcache := [(engKey (.core 0), [⟨4096, some ⟨0, 2 ^ 40, 0, true, true⟩⟩, ⟨0x2_0000, some ⟨0, 2 ^ 40, 0, true, true⟩⟩, ⟨0, some ⟨0, 2 ^ 40, 0, true, true⟩⟩]),
             (engKey (.rbd 0), [⟨4096, some ⟨0, 2 ^ 40, 0, true, true⟩⟩]), (engKey (.copy 0), [⟨4096, some ⟨0, 2 ^ 40, 0, true, true⟩⟩])] }

/-- GlobalAccess: aligned addresses inside and outside a window, operands, translations, and one that faults for good. -/
theorem wit_GlobalAccess : let s := wgs wgk
    s.rdS 49 (4 : BitVec 6).toNat = .ok 4096 ∧ (4096 + (0 : BitVec 20).signExtend 64 : Word).toNat % 128 = 0 ∧ RqRoom s.me ∧ s.rdSV 50 (.v 1) = .ok 0x3F80_0000 ∧
    s.xlate (engOf s.cur) 4096 (s.resolve s.me 4096).1 .write = .ok 4096 ∧ s.rdS 49 (5 : BitVec 6).toNat = .ok 0x2_0000 ∧
    inWindow (s.windowsOf s.me) 0x2_0000 = some ⟨0x2_0000, 1, true⟩ ∧ inWindow (s.windowsOf s.me) 4096 = none ∧ s.rdV 50 (1 : BitVec 11).toNat = .ok 0x3F80_0000 ∧
    s.rdS 51 (6 : BitVec 6).toNat = .ok 3 ∧ isNmv s.cur = false ∧ s.xlate (engOf s.cur) 4096 (s.resolve s.me 4096).1 .gacc = .ok 4096 ∧
    s.rdS 50 (3 : BitVec 6).toNat = .ok 64 ∧ s.xlate (engOf s.cur) (2 ^ 63) 0 .write = .fault .noncanon ∧ PReason.noncanon.resolvable = false ∧
    s.xlate (engOf s.cur) (2 ^ 63) 0 .read = .fault .noncanon ∧ s.xlate (engOf s.cur) 4096 0 .read = .ok 4096 := by
  and_intros <;> first | decide +kernel | rfl | (unfold RqRoom; decide +kernel)

/-- A bucket of 40 sums at 4,096 on stack 0, of four contributions, and one in order of arrival. -/
def wbk : Bucket := { parseBucket [] with base := 4096, count := 40, contrib := 4, ways := 2, pages := [4096] }
/-- A core of stack 0 that works on a share of that bucket. -/
def wnk : Core := { wr with share := some ⟨0, 0, 0, 0, 2, 0, 16, false, 0, []⟩, s := [(1, 32), (2, 0), (3, 2 ^ 27)] }
/-- See `wnk`. -/
def wns : State := { ws 2048 wnk with stks := [(0, { Stack.reset with buckets := [(0, wbk)] })] }

/-- WaitsAndSums: sub-rectangles that fit the launch and that do not, a table that translates, a share and the second row of its sums. -/
theorem wit_WaitsAndSums : (wgs wgk).subTooLarge (1 : BitVec 3).toNat (1 : BitVec 3).toNat = false ∧ (wgs wgk).subTooLarge (2 : BitVec 3).toNat (0 : BitVec 3).toNat = true ∧
    (wgs wgk).rdS 49 (4 : BitVec 6).toNat = .ok 4096 ∧ (4096 : Word).toNat % 64 = 0 ∧
    (∀ p ∈ pagesOf (4096 : Word).toNat 1024, ∃ pa, (wgs wgk).xlate (engOf (wgs wgk).cur) (p % 2 ^ 64) ((wgs wgk).resolve (wgs wgk).me 4096).1 .read = .ok pa) ∧
    wns.rdS 49 (1 : BitVec 6).toNat = .ok 32 ∧ wns.me.share = some ⟨0, 0, 0, 0, 2, 0, 16, false, 0, []⟩ ∧ look (wns.stack 0).buckets 0 = some wbk ∧
    (32 : Word).toNat % 2 ^ 20 % 32 = 0 ∧ (32 : Word).toNat % 2 ^ 20 < wbk.count ∧ RqRoom wns.me ∧ wns.rdV 50 (1 : BitVec 11).toNat = .ok 0x3F80_0000 ∧ wbk.tag = 0 ∧
    (List.range 40).all (fun e => !wns.cellPoisoned wbk.tag (wbk.sumPa e) 4 wbk.zero) = true ∧
    (List.range 40).all (fun e => wbk.sumPa e == 4096 + 4 * e) = true :=
  ⟨by decide +kernel, by decide +kernel, rfl, by decide +kernel, fun p h => ⟨4096, by
    have h2 : p = 4096 := by simpa using (show p ∈ [4096] from h)
    subst h2; decide +kernel⟩, rfl, rfl, rfl, by decide +kernel, by decide +kernel, by unfold RqRoom; decide +kernel, rfl, rfl, by decide +kernel,
    by decide +kernel⟩

/-- The core and state of the asynchronous statements: S1 to S4 hold a destination, a source, a length and a descriptor in spill memory. -/
def wak : Core := { wgk with s := [(1, 4096), (2, 8192), (3, 128), (4, 0), (5, 64), (6, 3)], ctag := 0
                             spill := (((((Memory.setNat [] 0 8 (2 ^ 32 * 64 + 2)).setNat 0x18 8 0)).setNat 64 8 0).setNat 0x48 8 0) }
/-- A request under way for core 0. -/
def weng (k : EngK) (n : Nat) : Eng := ⟨k, n, 0, some 0, 0, 50, 0, 0, 0, false, 0, false, [], 0, 0, false, none, 0, 0⟩

/-- EngineRequests: registers of a copy of 128 bytes, of 0 bytes, a descriptor with two rows of 64 bytes, a queue with room and one without. -/
theorem wit_EngineRequests : (wgs wak).rdS 57 (1 : BitVec 6).toNat = .ok 4096 ∧ (wgs wak).rdS 58 (2 : BitVec 6).toNat = .ok 8192 ∧
    (wgs wak).rdS 59 (3 : BitVec 6).toNat = .ok 128 ∧ (wgs wak).rdS 59 (4 : BitVec 6).toNat = .ok 0 ∧ isNmv (wgs wak).cur = false ∧
    (wgs wak).engsOf 0 [0, 1, 2] < 16 ∧ (128 : Word).toNat % 2 ^ 32 ≠ 0 ∧ (0 : Word).toNat % 2 ^ 32 = 0 ∧ (wgs wak).engsOf 0 [3] < 16 ∧
    ((0 : Word).toNat < 0x5FC0 ∧ (0 : Word).toNat / 128 ∉ wak.badSpill ∧ 1 ≤ wak.spill.nat (0 + 0) 4 ∧ wak.spill.nat (0 + 0) 4 ≤ 1048576 ∧
      1 ≤ wak.spill.nat (0 + 4) 4 ∧ wak.spill.nat (0 + 4) 4 ≤ 16777216 ∧ wak.spill.nat (0 + 0x18) 8 % 8 = 0) ∧
    16 ≤ ({ wgs wak with engs := (List.range 16).map (fun i => (i, weng (.copy 1 8 0 0 none) 0)) } : State).engsOf 0 [0, 1, 2] ∧ RqRoom (wgs wak).me ∧
    isNmv (ws 2048 wak).cur = true := by
  and_intros <;> first | decide +kernel | rfl | (unfold RqRoom; decide +kernel)

/-- StitchingInstructions: addresses aligned and not, tags below and beside the core's, a bucket's page, a sleeve, a ring of four slots. -/
def wtk : Core := { wak with ctag := 5, s := [(1, 64), (2, 65), (3, 6), (4, 5), (5, 4096), (6, 3), (7, 7)]
                             spill := (((((Memory.setNat [] 0x50 8 (2 ^ 32 * 128)).setNat 0x58 8 128).setNat 0x5C 8 4).setNat 0x60 8 8).setNat 0x64 8 1) }
/-- See `wtk`. -/
theorem wit_StitchingInstructions : (64 : Word).toNat % 64 = 0 ∧ (65 : Word).toNat % 64 ≠ 0 ∧ (wgs wtk).within ((6 : Word).toNat % 4096) wtk.ctag.toNat = true ∧
    wtk.ctag ≠ 0 ∧ (wgs wtk).within ((7 : Word).toNat % 4096) wtk.ctag.toNat = false ∧ (wgs wtk).descends 16 6 wtk.ctag.toNat = true ∧
    (wgs wtk).xlate (engOf (wgs wtk).cur) 4096 ((wgs wtk).resolve (wgs wtk).me 4096).1 .read = .ok 4096 ∧
    look wtk.sleeves (2 : BitVec 3).toNat = some ⟨0, 0, 0, 128, 128, 4, 8, 1, 1, 4, [1], false, []⟩ ∧ (3 : Word).toNat % 8192 ≤ 4 - 1 ∧
    look wtk.sleeves (1 : BitVec 3).toNat = none ∧ (wgs wtk).rdS 57 (6 : BitVec 6).toNat = .ok 3 ∧ (wgs wtk).rdS 58 (5 : BitVec 6).toNat = .ok 4096 ∧
    (let f (o m : Nat) : Nat := wtk.spill.nat (64 + o) m
     f 0x10 4 % 128 = 0 ∧ f 0x14 4 % 128 = 0 ∧ f 0x18 4 ≤ f 0x14 4 ∧ f 0x18 4 % 128 = 0 ∧ 128 ≤ f 0x18 4 ∧ f 0x18 4 ≤ 786432 ∧ f 0x1C 2 ≠ 0 ∧
      f 0x1C 2 ≤ 4096 ∧ f 0x20 4 ≠ 0 ∧ f 0x24 2 ≤ f 0x1C 2) ∧
    wtk.rid = some 0 ∧ look (wgs wtk).launches 0 = some wlaunch ∧ wlaunch.covers (coreCluster (wgs wtk).cur) = true ∧
    (∀ i, i < 32 → (64 : Word).getLsbD i = true → (((wgs wtk).cluster 0).slice i).mode = .fifo → (((wgs wtk).cluster 0).slice i).fifo = []) := by
  and_intros <;> first | decide +kernel | rfl

/-- StitchingInstructions, on an NMV core: the handle of its own share, and no share. -/
theorem wit_StitchingInstructions_nmv : isNmv wns.cur = true ∧ wns.me.share = some ⟨0, 0, 0, 0, 2, 0, 16, false, 0, []⟩ ∧
    (2 ^ 27 * 0 + 0 : Nat) = (0 : Word).toNat ∧ wns.rdS 57 (2 : BitVec 6).toNat = .ok 0 ∧ (⟨0, 0, 0, 0, 2, 0, 16, false, 0, []⟩ : Share).done = false ∧ wrs.me.share = none := by
  and_intros <;> first | decide +kernel | rfl

/-- SignalIssue: aligned objects that translate, outside the windows and inside one, amounts and masks of 0 and at their limits. -/
theorem wit_SignalIssue : (wgs wgk).rdS 57 (4 : BitVec 6).toNat = .ok 4096 ∧ (wgs wgk).rdS 58 (6 : BitVec 6).toNat = .ok 3 ∧ (4096 : Word).toNat % 64 = 0 ∧
    inWindow ((wgs wgk).windowsOf wgk) (4096 : Word).toNat = none ∧ (wgs wgk).xlate (engOf (wgs wgk).cur) 4096 0 .write = .ok 4096 ∧
    (2 ^ 48 - 1 : Word).toNat < 2 ^ 48 ∧ 2 ^ 48 ≤ (2 ^ 48 : Word).toNat ∧ (3 : Word).toNat % 2 ^ 32 ≠ 0 ∧ (0 : Word).toNat % 2 ^ 32 = 0 ∧
    (5 : Word).toNat % 8 ≠ 0 ∧ inWindow ((wgs wgk).windowsOf wgk) (0x2_0000 : Word).toNat ≠ none ∧ isNmv (wgs wgk).cur = false ∧ wgk.rid = some 0 ∧
    look (wgs wgk).launches 0 = some wlaunch ∧ (3 : Word).toNat % 65536 ≠ 0 ∧ coreAt (1 % 32) (1 / 2 ^ 16 % 64) ∈ wlaunch.cores ∧ wgk.paired = false ∧
    coreAt (2 % 32) (2 / 2 ^ 16 % 64) ∉ wlaunch.cores ∧ (65536 : Word).toNat % 65536 = 0 := by
  and_intros <;> first | decide +kernel | rfl

/-- A request of core 0 of launch 0 at an address. -/
def wreq (k : ReqK) (pa n : Nat) : Req := ⟨k, 0, some 0, 0, 0, 0, false, BitVec.ofNat 64 pa, pa, n, 7, 0, 0, 0, 0, 0, true, true⟩
/-- A state in which that request is under way, for a core that waits for its result. -/
def wrq (k : ReqK) (pa n : Nat) : State := { wgs { wgk with pend := [wp (.s 1)] } with reqs := [(3, wreq k pa n)] }

/-- MemorySteps: a load, its return, and a weak store and its fault, each under way for a context that runs. -/
theorem wit_MemorySteps : let s := wrq (.load true) 4096 8
    let r := wreq (.load true) 4096 8
    look s.reqs 3 = some r ∧ s.tagDead r.owner = false ∧ s.ctxAt r.core r.rid = .running ∧ (s.core r.core).pendAt r.pend = some (wp (.s 1)) ∧
    s.xlate (engOf r.core) r.va.toNat r.tag .read = .ok 4096 ∧ r.tag = 0 ∧ region 4096 = .ordinary ∧ s.paHeld 4096 = false ∧ dieCell (coreDie r.core) = paStack 4096 ∧
    (∀ u ∈ touchedUnits 4096 8, s.cellPoisoned 0 (128 * u) 1 r.zero = false) ∧ s.ownStores r = [] ∧ ({ r with size := 128 } : Req).size = 128 ∧ r.size ≠ 128 ∧
    (wrq (.store false) 4096 8).ctxAt 0 (some 0) = .running := by
  and_intros <;> first | decide +kernel | rfl

/-- MemorySteps: a tagged store whose cell is there, an atomic, and a strong store whose core waits. -/
theorem wit_MemorySteps_more : let s : State := { wrq (.store true) 4096 8 with stks := [(0, { Stack.reset with cells := [(cellKey 5 4, List.replicate 1024 1)] })] }
    s.cell 5 4096 = some (List.replicate 1024 1) ∧ ({ wreq (.store true) 4096 8 with tag := 5 } : Req).tag ≠ 0 ∧ s.paHeld 4096 = false ∧
    (∀ u ∈ touchedUnits 4096 8, s.cellPoisoned 0 (128 * u) 1 false = false) ∧ s.ctxAt 0 (some 0) = .running ∧
    (({ s with cores := [(0, { wgk with op := some (.strong 3) })] } : State).core 0).op = some (.strong 3) := by
  and_intros <;> first | decide +kernel | rfl

/-- TranslationSteps: a canonical address with a leaf and without one, a sleeping core, and a page request of a frozen core. -/
theorem wit_TranslationSteps : canonical 4096 = true ∧ (wgs wgk).iommuLeaf 4096 = some ⟨0, 2 ^ 40, 0, true, true⟩ ∧ (wgs wgk).iommuLeaf (2 ^ 41) = none ∧
    ((wgs { wgk with phase := .sleep (.ctr 4096 (some 4096) 1) }).core 0).phase = .sleep (.ctr 4096 (some 4096) 1) ∧ 4096 ≤ (4096 : Word).toNat ∧ (4096 : Word).toNat < 4096 + 1 ∧
    (wrq (.page false (.core 0) .core) 4096 8).tagDead 0 = false ∧ (wrq (.page false (.core 0) .core) 4096 8).ctxAt 0 (some 0) = .running ∧
    ((wgs { wgk with op := some (.access (wreq (.store true) 4096 8) false) }).core 0).op = some (.access (wreq (.store true) 4096 8) false) ∧ wgk.mon = none := by
  and_intros <;> first | decide +kernel | rfl

/-- A job control block at 4,096: EXPECT 3, COUNT 1, in a given state. -/
def wjcb (st : Nat) (s : State) : State := { s with mem := ((Memory.setNat [] 4096 8 3).setNat 4104 8 1).setNat (4096 + 0x14) 4 st }

/-- SignalSteps: a posted counter at its target, block states, and an event for a running core. -/
theorem wit_SignalSteps : let s := wrq (.cpost 5) 4096 16
    s.tagDead 0 = false ∧ s.paHeld 4096 = false ∧ region 4096 = .ordinary ∧ s.cellPoisoned 0 4096 64 false = false ∧ s.saved = [] ∧ (5 : Nat) < 2 ^ 48 ∧ (0 : Nat) < 8 ∧
    (s.counter 4096).past = false ∧ (wjcb 0 s).jcbState 4096 = .open_ ∧ (wjcb 1 s).jcbState 4096 ≠ .open_ ∧ (wjcb 3 s).jcbState 4096 ≠ .open_ ∧
    (wjcb 0 s).mem.nat 4104 8 + 1 < (wjcb 0 s).mem.nat 4096 8 ∧ (s.die (coreDie 0)).st = .live ∧ s.ctxAt 0 (some 0) = .running ∧
    (∀ e ∈ s.reqs, e.1 ≠ 3 → ∀ us w, e.2.k = .event us w → 0 ∉ us ∨ w ≠ 1) := by
  refine ⟨by decide +kernel, by decide +kernel, by decide +kernel, by decide +kernel, rfl, by decide, by decide, by decide +kernel, by decide +kernel, by decide +kernel,
    by decide +kernel, by decide +kernel, by decide +kernel, by decide +kernel, ?_⟩
  intro e h h2
  have h3 : e = (3, wreq (.cpost 5) 4096 16) := by simpa using (show e ∈ [(3, wreq (.cpost 5) 4096 16)] from h)
  subst h3; exact absurd rfl h2

/-- CoreStalls: a core in each of the states that a step ends, with nothing under way. -/
def wdk (f : Core → Core) : State := wgs (f { wgk with ctag := 0 })

/-- CoreStalls: sleep, PHASE, FENCE and the drains of a stitch, of TAGNEW, of LNCH and of EXIT. -/
theorem wit_CoreStalls : let k := (wdk id).core 0
    k.mon = none ∧ k.await = [] ∧ k.out = .no ∧ k.pend = [] ∧ k.bpend = [] ∧ k.mx = [] ∧ k.release = 0 ∧ k.op = none ∧ k.cancelTc = none ∧ k.stitchBit = false ∧
    (0 : Word).toNat ≤ (wdk id).tc ∧ (∀ t r, .weak t r ∉ k.causes) ∧ (wdk id).reqs = [] ∧ (wdk id).classDone 0 .ls = true ∧ (wdk id).classDone 0 .copy = true ∧
    (wdk id).hxd.pkgFailed = false ∧ isNmv 0 = false ∧ k.share = none ∧ k.rid = some 0 ∧
    (wdk (fun k => { k with phase := .drain .exit, running := some 2 })).me.running = some 2 ∧ look (wdk id).launches 0 = some wlaunch ∧
    (wdk (fun k => { k with cancelTc := some 1 })).me.cancelTc ≠ none := by
  refine ⟨rfl, rfl, rfl, rfl, rfl, rfl, rfl, rfl, rfl, rfl, by decide, fun t r h => ?_, rfl, by decide +kernel, by decide +kernel, rfl, by decide, rfl, rfl, rfl, rfl, by decide⟩
  exact (List.not_mem_nil (a := PCause.weak t r)) (show PCause.weak t r ∈ ([] : List PCause) from h)

/-- CoreStalls: slices named by an SLMODE, quiet and empty, and a task of the table that may start. -/
theorem wit_CoreStalls_more : let s := { wdk (fun k => { k with op := some (.switch 6 .fifo 0 0), tasks := [(0, 5), (3, 2)] }) with codes := [(1, { wx with starts := [0, 4], entry := 4 })], clusters := [(0, wcl)] }
    (∀ n, n < 32 → (6 : BitVec 32).getLsbD n = true → ((s.cluster 0).slice n).mode ≠ .fifo → s.sliceQuiet 0 n 0 0 = true) ∧
    ((0 : Nat) < 32 ∧ (6 : BitVec 32).getLsbD 0 = false) ∧ ((1 : Nat) < 32 ∧ (6 : BitVec 32).getLsbD 1 = true ∧ ((s.cluster 0).slice 1).mode ≠ .fifo) ∧
    wlaunch.state = .placed ∧ (s.die (coreDie 0)).st = .live ∧ look s.codes s.me.code = some { wx with starts := [0, 4], entry := 4 } ∧ 191 ∉ s.me.badSpill ∧
    (∀ i, i < 4 → s.me.spill.nat (0x5FC0 + 16 * i + 15) 1 % 16 = 0) ∧ (3, 2) ∈ s.me.tasks ∧ (∀ y ∈ s.me.tasks, y ≠ (3, 2) → 2 < y.2) := by
  and_intros <;> first | decide +kernel | rfl

/-- An answer of a launch controller's read. -/
def lcIs (x : LcRd (List Byte)) (a : List Byte) : Bool :=
  match x with
  | .ok b => decide (b = a)
  | _ => false
/-- See `lcIs`. -/
theorem lcIs_eq {x : LcRd (List Byte)} {a : List Byte} (h : lcIs x a = true) : x = .ok a := by
  match x, h with
  | .ok b, h => exact congrArg LcRd.ok (of_decide_eq_true h)

/-- A kernel image of one level at 0x10000 (02 R25 to R28), EXIT its only bundle; its CRC is the IEEE CRC-32 of its bytes,
  computed outside. -/
def wimgK : Memory := [
  (0x10000, 69), (0x10001, 75), (0x10002, 73), (0x10003, 1), (0x10004, 1), (0x10006, 1), (0x10009, 2), (0x1000C, 1), (0x1000F,
  1), (0x10011, 1), (0x10014, 64), (0x10015, 1), (0x10018, 1), (0x1001C, 128), (0x1001D, 1), (0x1002C, 192), (0x1002D, 1), (0x10040,
  30), (0x10041, 65), (0x10042, 43), (0x10043, 103), (0x1012D, 32), (0x1012E, 128), (0x10180, 1), (0x101C0, 1), (0x101C4, 8)]
/-- A monitor image at 0x11000, RETT its only bundle. -/
def wimgM : Memory := [
  (0x11000, 69), (0x11001, 75), (0x11002, 73), (0x11003, 1), (0x11004, 1), (0x11006, 1), (0x11008, 192), (0x11009, 1), (0x1100C,
  1), (0x11011, 1), (0x11014, 64), (0x11015, 1), (0x11018, 1), (0x1101C, 128), (0x1101D, 1), (0x11040, 241), (0x11041, 141),
  (0x11042, 52), (0x11043, 220), (0x1112D, 52), (0x1112E, 128), (0x11180, 1)]
/-- An NMV image at 0x12000. -/
def wimgN : Memory := [
  (0x12000, 69), (0x12001, 75), (0x12002, 73), (0x12003, 1), (0x12004, 1), (0x12006, 1), (0x12007, 4), (0x12008, 192), (0x12009,
  1), (0x1200C, 1), (0x12011, 1), (0x12014, 64), (0x12015, 1), (0x12018, 1), (0x1201C, 128), (0x1201D, 1), (0x12040, 232), (0x12041,
  166), (0x12042, 180), (0x1212D, 32), (0x1212E, 128), (0x12180, 1)]
/-- A launch record at 0x13000 (02 R30) of that kernel: four points, a rectangle of two by two, token 9. -/
def wimgR : Memory := [
  (0x13002, 1), (0x13008, 1), (0x1300C, 17), (0x13012, 1), (0x13014, 9), (0x13060, 4)]
/-- Memory with the kernel image and its record. -/
def wmem : Memory := wimgK ++ wimgR
/-- See `wmem`. -/
def wls2 (l : Launch) : State :=
  let x : XEnt := ⟨0x10000, some ⟨0, 2 ^ 40, 0, true, true⟩⟩
  { wgs { wgk with ctag := 0 } with mem := wmem, launches := [(0, l)], xcache := [(engKey (lcEngine 0), [x]), (engKey (.rbd 0), [x]), (engKey (.core 0), [x])] }
/-- A launch that an LC accepts. -/
def wla : Launch := { wlaunch with state := .accepting, addr := 0x13000, onMesh := false, windows := [] }
/-- The header of the kernel image. -/
def whdr : List Byte := wmem.bytes 0x10000 256

/-- LaunchPort: a live die, and a record that passes every check of acceptance. -/
theorem wit_LaunchPort : let s := wls2 wla
    let r := parseRec (wmem.bytes 0x13000 256)
    (s.die 63).st = .live ∧ (9 : Word).toNat % 2 ^ 32 ≠ 0 ∧ s.hxd.pkgFailed = false ∧ wla.issuer = none ∧
    lcIs (s.lcRead 0 wla 0 0x13000 256 (.launchAcceptance 0)) (wmem.bytes 0x13000 256) = true ∧
    lcIs (s.lcRead 0 wla 0 r.image 256 (.launchAcceptance 0)) whdr = true ∧ whdr ≠ [] ∧ hdrNest whdr = r.levels.length ∧ r.levels ≠ [] ∧
    lcIs (s.lcRead 0 wla 0 (r.image + BitVec.ofNat 64 (bnat whdr 0x2C 4)) (8 * hdrNest whdr) (.launchAcceptance 0)) (toBytes 8 (2 ^ 32 * 8 + 1)) = true ∧
    r.nwin = 0 ∧ r.donejcb = 0 ∧ r.waitjcb = [] ∧ s.recordFaults wla r = [] ∧ magicOk whdr = true ∧ rectFaults r (attrPaired whdr) = [] ∧
    nestFaults r.levels (hdrNest whdr) [(1, 8)] = [] ∧ s.pendingLaunches < 4096 := by
  and_intros <;> first | decide +kernel | rfl

/-- LaunchPort: a record that cannot be read, a held launch alone, tokens, aging at its limit and a cancelled core at its limit. -/
theorem wit_LaunchPort_more : let s := wls2 { wla with addr := 2 ^ 63 }
    (match s.lcRead 0 wla 0 (2 ^ 63) 256 (.launchAcceptance 0) with | .bad v => decide (v = 2 ^ 63) | _ => false) = true ∧ wla.jdone = none ∧
    (∀ e ∈ (wls2 { wla with state := .held }).launches, e.2.state = .held → e = (0, { wla with state := .held }) ∨ wla.order < e.2.order) ∧
    rises s.launches = true ∧ wla.recd.token.toNat = 9 ∧ (9 : Nat) ≠ 0 ∧ coreAt 0 0 ∈ wlaunch.cores ∧ s.hxd.paAging ≠ 0 ∧ wla.prio < 3 ∧
    0 + s.hxd.paAging.toNat ≤ ({ s with tc := 0x0100_0000 } : State).tc ∧ ({ s with cores := [(0, { wgk with cancelTc := some 4 })], tc := 65540 } : State).me.cancelTc = some 4 ∧
    4 + 65536 ≤ 65540 := by
  and_intros <;> first | decide +kernel | rfl

/-- One bit of the CRC, of a number. -/
def crcBitN (n : Nat) : Nat := if n % 2 = 1 then n / 2 ^^^ 0xEDB88320 else n / 2
/-- The CRC of bytes, of a number that is looked at before each byte. -/
def crcN (n : Nat) : List Byte → Nat
  | [] => n
  | b :: bs =>
    let m := crcBitN (crcBitN (crcBitN (crcBitN (crcBitN (crcBitN (crcBitN (crcBitN (n ^^^ b.toNat))))))))
    if n = 0 then crcN m bs else crcN m bs
/-- See `crcBitN`. -/
theorem crcBit_nat (c : BitVec 32) : (crcBit c).toNat = crcBitN c.toNat := by
  have h : c.getLsbD 0 = decide (c.toNat % 2 = 1) := by simp [BitVec.getLsbD, Nat.testBit_zero]
  simp only [crcBit, crcBitN, h, decide_eq_true_eq]
  split <;> simp [Nat.shiftRight_eq_div_pow]
/-- See `crcN`. -/
theorem crc_nat (bs : List Byte) : crc32 bs = ~~~ BitVec.ofNat 32 (crcN 0xFFFF_FFFF bs) := by
  have h : ∀ (bs : List Byte) (c : BitVec 32), bs.foldl crcByte c = BitVec.ofNat 32 (crcN c.toNat bs) := by
    intro bs; induction bs with
    | nil => intro c; simp [crcN]
    | cons b bs ih =>
      intro c
      have hb : c.toNat ^^^ b.toNat = (c ^^^ b.setWidth 32).toNat := by
        have : b.toNat % 2 ^ 32 = b.toNat := Nat.mod_eq_of_lt (Nat.lt_of_lt_of_le b.isLt (by decide))
        simp only [BitVec.toNat_xor, BitVec.toNat_setWidth, this]
      simp only [List.foldl, crcN, ite_self, ih, crcByte, hb, ← crcBit_nat]
  simp only [crc32, h]; rfl
/-- LaunchPort: a monitor image that passes every check, read by die 0. -/
theorem wit_LaunchPort_monitor : let s : State := { wls2 wla with mem := wimgM }
    (0x11000 : Word).toNat % 64 = 0 ∧ (0x11001 : Word).toNat % 64 ≠ 0 ∧ lcIs (s.monRead 0 0x11000 256 (.lpMonimg 0 0x11000)) (wimgM.bytes 0x11000 256) = true ∧
    256 < hdrLen (wimgM.bytes 0x11000 256) ∧ hdrLen (wimgM.bytes 0x11000 256) ≤ 4194304 ∧
    lcIs (s.monRead 0 (0x11000 + 256) (hdrLen (wimgM.bytes 0x11000 256) - 256) (.lpMonimg 0 0x11000)) (wimgM.bytes 0x11100 192) = true ∧
    lowest (monitorFaults (wimgM.bytes 0x11000 256) (wimgM.bytes 0x11000 448)) = none := by
  unfold monitorFaults imageFaults; simp only [crc_nat]
  and_intros <;> first | decide +kernel | rfl

/-- LaunchRun: the one launch queued, its place; and a launch being placed whose image passes every check. -/
theorem wit_LaunchRun : let q := wls2 { wla with state := .queued, header := whdr }
    let s := wls2 { wla with state := .placing, header := whdr, recd := parseRec (wmem.bytes 0x13000 256) }
    let l := { wla with state := .placing, header := whdr, recd := parseRec (wmem.bytes 0x13000 256) }
    q.queueOf 3 ++ q.queueOf 2 ++ q.queueOf 1 ++ q.queueOf 0 = [(0, { wla with state := .queued, header := whdr })] ∧
    q.spotFor { wla with state := .queued, header := whdr } = some ((0, 0), 0) ∧ (s.die l.master).st = .live ∧ (∀ d ∈ l.dies, (s.die d).st = .live) ∧
    l.x0 + l.recd.width ≤ 32 ∧ 256 < hdrLen l.header ∧ hdrLen l.header ≤ 4194304 ∧ l.recd.arglen = 0 ∧
    lcIs (s.lcRead 0 l l.master (l.recd.image + 256) (hdrLen l.header - 256) (.launchStart 0)) (wmem.bytes 0x10100 256) = true ∧
    imageFaults l.header (wmem.bytes 0x10000 512) = [] ∧ attrNmv l.header = false ∧ argFaults l.header (wmem.bytes 0x10000 512) [] 0 = [] ∧ s.sliceFaults l = [] := by
  unfold imageFaults; simp only [crc_nat]
  and_intros <;> first | decide +kernel | rfl

/-- LaunchRun: a core that asks for points, a point finished, and a launch whose last point has finished. -/
theorem wit_LaunchRun_more : let l := { wlaunch with recd := { wlaunch.recd with ctrl := 0x1000_0001 }, nfin := 4, given := 3, done := [2] }
    let s := wls2 l
    (s.core 0).rid = some 0 ∧ l.recd.dyn = true ∧ l.ranges = [] ∧ 0 < Nat.min 64 (l.points - l.given) ∧ 2 ∈ l.done ∧ l.nfin = l.points ∧
    (∀ c ∈ l.leads, (({ s with cores := [(0, { wgk with phase := .table })] } : State).core c).rid = some 0 →
      (({ s with cores := [(0, { wgk with phase := .table })] } : State).core c).finished = true) ∧
    s.quietLaunch 0 = true ∧ s.paHeld 4096 = false ∧ (wjcb 0 s).jcbState 4096 = .open_ ∧ (wjcb 0 s).mem.nat (4096 + 8) 8 + 1 < (wjcb 0 s).mem.nat 4096 8 := by
  and_intros <;> first | decide +kernel | rfl

/-- A state in which an engine has a request of core 0, and cluster 0 is all SCRATCH. -/
def wes (e : Eng) : State := { wgs wgk with engs := [(7, e)], clusters := [(0, wcl)] }
/-- A copy of 128 bytes from address 4,096 to the last bytes of scratch. -/
def wcopy : Eng := { weng (.copy 1 128 0 0 none) 0 with dst := 0xF000_0000_017F_FF80, src := 4096 }

/-- EngineSteps: copies between scratch and memory in both directions, a row to fill, a gather of two columns, and a promise at its time. -/
theorem wit_EngineSteps : let s := wes wcopy
    look s.engs 7 = some wcopy ∧ s.tagDead wcopy.owner = false ∧ wcopy.page = none ∧ wcopy.prog = 0 ∧ scratchForm wcopy.dst = some 0x17F_FF80 ∧
    scratchForm (0xF000_0000_0000_0000 : Word) = some 0 ∧ (0 + 128 ≤ 0x17F_FF80) ∧ isScratchForm wcopy.src = false ∧ (4096 : Word).toNat % 1024 + 128 ≤ 1024 ∧ wcopy.srcTag = 0 ∧
    s.xlate (.copy 0) 4096 0 .read = .ok 4096 ∧ s.xlate (.copy 0) 4096 0 .write = .ok 4096 ∧ region 4096 = .ordinary ∧ s.paHeld 4096 = false ∧ s.ctxAt 0 (some 0) = .running ∧
    look (s.core 0).sleeves (2 : BitVec 3).toNat = some ⟨0, 0, 0, 128, 128, 4, 8, 1, 1, 4, [1], false, []⟩ ∧ (0 + 3 % 4 * 128 < 2 ^ 25) ∧
    isNmv wcopy.core = false ∧ wcopy.broken = false ∧ wcopy.promise ≤ ({ s with tc := 50 } : State).tc ∧ s.tc < wcopy.promise := by
  and_intros <;> first | decide +kernel | rfl

/-- EngineSteps: the regions of those requests lie in scratch, and the source of row 3 of the sleeve translates. -/
theorem wit_EngineSteps_regions : InScratch wcl 0x17F_FF80 128 ∧ InScratch wcl 0 128 ∧ InScratch wcl 384 128 ∧
    (wes wcopy).xlate (.copy 0) (4096 + BitVec.ofNat 64 3 * 0 : Word).toNat 0 .read = .ok 4096 :=
  ⟨wcl_scratch _ _ (by decide), wcl_scratch _ _ (by decide), wcl_scratch _ _ (by decide), by decide +kernel⟩

/-- EngineSteps: a gather of three FP32 elements by an enabled stride pattern of stack 0. -/
theorem wit_EngineSteps_gather : let p : FWin := ⟨0x8000_0009, [3 * 2 ^ 32, 1, 4, 0]⟩
    let s : State := { wes { weng (.gather 1 3) 3 with dst := 0xF000_0000_0000_0000, src := 4096 } with hxd := { Hxd.reset with spt := [(1, p)] } }
    s.stackShut 0 = false ∧ (s.hxd.pat 1).en = true ∧ (s.hxd.pat 1).wv = false ∧ (s.hxd.pat 1).fmt = some .fp32 ∧ (ElemType.fp32 ∉ [ElemType.untyped, .t6, .mom8]) ∧
    (4096 : Word).toNat % 4 = 0 ∧ (upFrom 0 3).all (fun j => decide (s.xlate (.rbd 0) (4096 + BitVec.ofInt 64 ((((j % Nat.max (s.hxd.pat 1).n1 1 : Nat) : Int) * (s.hxd.pat 1).s1 +
      ((j / Nat.max (s.hxd.pat 1).n1 1 : Nat) : Int) * (s.hxd.pat 1).s2) * 4) : Word).toNat 0 .read = .ok (4096 + 4 * j)) && decide (paStack (4096 + 4 * j) = 0)) = true := by
  and_intros <;> first | decide +kernel | rfl

/-- TagSteps: tags in each of their states, the lowest free one, and a limit reached. -/
def wtg : State := { wrq (.tagnew 5 9) 0 0 with hxd := { Hxd.reset with tgaLimit := 3, tags := [(1, ⟨.draining, 1, 0, 0, 3⟩), (5, ⟨.live, 1, 0, 0, 1⟩), (6, ⟨.live, 2, 5, 0, 1⟩)] } }
/-- See `wtg`. -/
theorem wit_TagSteps : wtg.tagDead 0 = false ∧ (wtg.tag 4).st ≠ .live ∧ (wtg.tag 5).st = .live ∧ (wtg.tag 5).depth < 15 ∧ wtg.hxd.tagWait = [] ∧ wtg.hxd.tgaLimit ≤ wtg.tagCount ∧
    ({ wtg with hxd := { wtg.hxd with tgaLimit := 4 } } : State).tagCount < 4 ∧ (wtg.tag 2).st = .free ∧ (∀ u, 1 ≤ u → u < 2 → (wtg.tag u).st ≠ .free) ∧
    wtg.liveBelow 5 = true ∧ wtg.liveBelow 6 = false ∧ (wtg.tag 1).st = .draining ∧ wtg.stackShut 31 = false ∧ wtg.descends 16 6 5 = true ∧
    (∀ k, .tagDrain 1 k ∉ wtg.inflight) ∧ (∀ e ∈ wtg.reqs, e.2.owner ≠ 1) ∧ wtg.engs = [] ∧ wtg.ctxAt 0 (some 0) = .running ∧
    (wtg.core 0).pendAt 0 = some (wp (.s 1)) ∧ (4094 : Word).toNat % 4096 ≠ 4095 ∧ (4095 : Word).toNat % 4096 = 4095 := by
  and_intros <;> first | decide +kernel | rfl | exact fun k h => (List.not_mem_nil h).elim |
    (intro u h1 h2; have h3 : u = 1 := by omega
     subst h3; decide +kernel)

/-- TagSteps: a core that waits for the answer of TAGNEW, which has come. -/
theorem wit_TagSteps_answer : let r := { wreq (.tagnew 5 9) 0 0 with data := BitVec.ofNat 1024 (2 + 1) }
    let s : State := { wtg with reqs := [(3, r)], cores := [(0, { wgk with op := some (.answer 3 7) })] }
    look s.reqs 3 = some r ∧ s.ctxAt 0 (some 0) = .running ∧ (s.core 0).op = some (.answer 3 7) ∧ (s.core 0).cancelTc = none ∧ s.hxd.pkgFailed = false ∧
    (s.reqs.all (fun e => decide (e.1 = 3))) = true := by
  and_intros <;> first | decide +kernel | rfl

/-- BucketSteps: descriptors, contributions in each state of a bucket and chunk. -/
def wbs (b : Bucket) : State := { wrq (.gacc 1) 4096 128 with stks := [(0, { Stack.reset with buckets := [(0, b)] })] }
/-- See `wbs`: a slot at and below CONTRIB, a bucket RUNNING, OPEN in order of slots and of arrival, an empty and a full staging area. -/
theorem wit_BucketSteps : let y := wbk
    let r := wreq (.gacc 1) 4096 128
    let s := wbs y
    s.tagDead r.owner = false ∧ region r.pa = .ordinary ∧ s.paHeld r.pa = false ∧ (s.stack (paStack r.pa)).buckets = [(0, y)] ∧ y.tag = r.tag ∧
    y.offsetOf r.pa = some (4 * y.wc * 0) ∧ y.contrib ≤ 4 ∧ 1 < y.contrib ∧ y.st = .open_ ∧ ({ y with st := .running } : Bucket).st = .running ∧
    y.order ≠ .arrival ∧ (y.chunk 0).next < 1 ∧ (y.chunk 0).staged = [] ∧ (s.stack 0).stage < 64512 ∧ anyNonFinite (y.inputs 0 7) = false ∧
    (64512 : Nat) ≤ ({ Stack.reset with stage := 64512 } : Stack).stage ∧ (y.chunk 0).napplied + 1 < y.contrib ∧ 1 ∉ (y.chunk 0).bitmap ∧
    (upFrom 0 32).all (fun i => !(dec .fp32 (addLane 0 ((y.inputs 0 7).getD i 0)).1.toNat).nonFinite) = true ∧ y.jcb = none ∧ 0 < y.count := by
  and_intros <;> first | decide +kernel | rfl

/-- BucketSteps, in order of arrival: the sums are readable and apart. -/
theorem wit_BucketSteps_apart : (∀ i, i < wbk.count → (wbs wbk).cellPoisoned 0 (wbk.sumPa i) 4 wbk.zero = false) ∧
    (∀ i j, i < j → j < wbk.count → wbk.sumPa i + 4 ≤ wbk.sumPa j ∨ wbk.sumPa j + 4 ≤ wbk.sumPa i) ∧
    ({ wbk with order := .arrival } : Bucket).order = .arrival := by
  have h : ∀ i, i < 40 → wbk.sumPa i = 4096 + 4 * i := by decide +kernel
  have hc : wbk.count = 40 := rfl
  refine ⟨by decide +kernel, fun i j hij hj => ?_, rfl⟩
  rw [hc] at hj
  rw [h i (by omega), h j hj]; omega

/-- BucketSteps: a declaration whose descriptor is read and in range, and whose page translates. -/
theorem wit_BucketSteps_define : let m := (((Memory.setNat [] 4096 8 8192).setNat 4104 4 40).setNat 4108 2 4).setNat (4096 + 0x22) 1 2
    let s : State := { wrq .bkdef 4096 64 with mem := m, stks := [], cores := [(0, { wgk with ctag := 0, op := some (.answer 3 7) })] }
    let bs := m.bytes 4096 64
    (match s.readVa (.core 0) 3 0 false 4096 64 with | .data ps => decide (bytesOf ps = bs ∧ anyPoison ps = false) | _ => false) = true ∧
    s.bucketFieldBad (s.core 0) bs = false ∧ bnat bs 0x10 8 = 0 ∧ (s.core 0).op = some (.answer 3 7) ∧ (s.core 0).await = [] ∧
    (match s.xlateMany (.core 0) [(8192, 0)] with | .ok pas => decide (pas = [8192]) | _ => false) = true ∧ region 8192 = .ordinary ∧
    (s.stack 0).buckets = [] ∧ (parseBucket bs).nchunks * (parseBucket bs).chunkBytes ≤ storeSize := by
  and_intros <;> first | decide +kernel | rfl

/-- BucketSteps: a share queued, its image, a free core, and a copy-out. -/
theorem wit_BucketSteps_share : let y := { wbk with st := .running, action := 0x12000 }
    let s : State := { wls2 wla with mem := wimgN, stks := [(0, { Stack.reset with buckets := [(0, y)], shares := [(0, 1)], copies := [0] })] }
    (s.stack 0).shares = [(0, 1)] ∧ s.freeNmvCore 0 = some 2048 ∧ s.stackShut 0 = false ∧ s.tagDead y.atag = false ∧ y.nwin = 0 ∧
    lcIs (s.rbdRead 0 0 y 0x12000 256 (.shareStart 0)) (wimgN.bytes 0x12000 256) = true ∧ 256 < hdrLen (wimgN.bytes 0x12000 256) ∧
    hdrLen (wimgN.bytes 0x12000 256) ≤ 4194304 ∧ lcIs (s.rbdRead 0 0 y (0x12000 + 256) 192 (.shareStart 0)) (wimgN.bytes 0x12100 192) = true ∧
    magicOk (wimgN.bytes 0x12000 256) = true ∧ imageFaults (wimgN.bytes 0x12000 256) (wimgN.bytes 0x12000 448) = [] ∧ nmvBad (wimgN.bytes 0x12000 256) = [] ∧
    layoutBad (wimgN.bytes 0x12000 256) (wimgN.bytes 0x12000 448) = [] ∧ 0 ∈ (s.stack 0).copies ∧ (0x12000 : Word).toNat % 1024 + 4 * y.count ≤ 1024 ∧
    s.xlate (.rbd 0) 0x12000 0 .write = .ok 0x12000 := by
  unfold imageFaults; simp only [crc_nat]
  and_intros <;> first | decide +kernel | rfl

/-- BucketSteps: pushes: a port to the peer, a push in custody, and one from a peer, new and seen before. -/
theorem wit_BucketSteps_push : let s : State := { wes { weng (.push 9 0 0 0) 4 with src := 4096, stack := 64 } with
      hxd := { Hxd.reset with ports := [(2, ⟨.up, 1, 9, true, 0, [7]⟩)], pushes := [(9, [4])], regs := [(regKey 11 (0x1000 + 72), 4)] } }
    s.hxd.portTo 9 7 = some 2 ∧ (match s.readVa (.copy 0) 7 0 false 4096 64 with | .data _ => true | _ => false) = true ∧
    7 ∈ (⟨.up, 1, 9, true, 0, [7]⟩ : Port).custody ∧ (⟨.up, 1, 9, true, 0, [7]⟩ : Port) ∈ vals s.hxd.ports ∧ s.iommuLeaf 4096 = some ⟨0, 2 ^ 40, 0, true, true⟩ ∧
    (5 : Nat) ∉ (look s.hxd.pushes 9).getD [] ∧ 4 ∈ (look s.hxd.pushes 9).getD [] := by
  and_intros <;> first | decide +kernel | rfl

/-- MonitorFreezes: a kernel with an interrupt pending, loops and return addresses, on a die that has a monitor. -/
def wfk : Core := { wgk with ctag := 0, pos := 7, causes := [.intr 0x10001], loops := [⟨1, 4, 2, 6⟩], ras := [3], code := 1, pend := [] }
/-- See `wfk`. -/
def wfs : State := { wgs wfk with codes := [(1, wx), (2, wx)], dies := [(0, { Die.reset with monitor := some 2 })] }
/-- See `wfk`. -/
theorem wit_MonitorFreezes : let k := wfs.core 0
    wfs.cur = 0 ∧ isNmv 0 = false ∧ Cause.illop ≠ .badtgt ∧ (k.pend = [] ∧ k.mx = [] ∧ k.loops.length ≤ 6 ∧ k.ras.length ≤ 8 ∧ k.pos < 2 ^ 20 ∧ wfs.tc < 2 ^ 64) ∧
    k.mon = none ∧ (wfs.die (coreDie 0)).monitor = some 2 ∧ look wfs.codes 2 = some wx ∧ k.phase = .run ∧ k.causes = [.intr 0x10001] ∧ k.op = none ∧
    k.release = 0 ∧ k.await = [] ∧ k.out = .no ∧ look wfs.codes k.code = some wx ∧ k.pos ∈ wx.starts ∧ k.pos < wx.hw.length ∧ k.ldecl ≤ k.loops.length ∧
    (∀ e ∈ k.loops, e.start < 2 ^ 20 ∧ e.end_ < 2 ^ 20) ∧ (∀ r ∈ k.ras, r < 2 ^ 20) := by
  and_intros <;> first | decide +kernel | rfl
/-- MonitorFreezes: what ends fatally: no monitor on the die, and a trap in the monitor. -/
theorem wit_MonitorFreezes_fatal : let k := (ws 0 { wk with rid := none }).core 0
    k.rid = none ∧ ((ws 0 k).die (coreDie 0)).monitor = none ∧ k.share = none ∧ { k with mon := some wm }.mon.isSome = true := by
  and_intros <;> first | decide +kernel | rfl

/-- RewindRestores: a core whose due result is poison, with a shadow of a bank and of a spill unit; the same in a second rewind, tagged. -/
def wrk : Core := { wgk with pend := [{ wp (.s 1) with st := .poison 4096, due := 20 }]
                             shadow := { Core.reset.shadow with banks := [(4, List.replicate 256 1)], spill := [(3, List.replicate 128 2)] } }
/-- See `wrk`. -/
theorem wit_RewindRestores : wrk.phase ≠ .ended ∧ wrk.phase ≠ .idle ∧ wrk.rewound = false ∧ wrk.window = false ∧
    { wp (.s 1) with st := .poison 4096, due := 20 } ∈ wrk.pend ∧ (20 : Nat) ≤ wrk.ic ∧ { wrk with paired := true }.paired = true ∧ rises wrk.shadow.banks = true ∧
    rises wrk.shadow.spill = true ∧ (∀ e ∈ wrk.shadow.spill, e.2.length = 128) ∧ look wrk.shadow.spill 3 = some (List.replicate 128 2) ∧ look wrk.shadow.spill (0 / 128) = none ∧
    { wrk with rewound := true }.rewound = true ∧ wrk.ctag ≠ 0 ∧ wk.duePoison = none := by
  and_intros <;> first | decide +kernel | rfl

/-- SwitchSteps: a context being saved into slot 2 of a pool at 2^20, and the same saved there. -/
def wsk : Core := { wgk with out := .saving 5, pend := [], running := none, phase := .table }
/-- See `wsk`. -/
def wss : State := { wgs wsk with launches := [(0, { wlaunch with slots := [(0, 2)], state := .preempting, clusters := [0] })]
                                  hxd := { (wgs wsk).hxd with saveBase := 0x10_0000, saveSlots := 4, slotsUsed := [2] } }
/-- The slots lie in ordinary memory. -/
theorem wss_slot (n a : Nat) (hn : n < 4) (ha : a < 2 ^ 20) : region (wss.slotPa n + a) = .ordinary := by
  have h : wss.slotPa n = 0x10_0000 + n * 2 ^ 20 := rfl
  have h1 : 0x10_0000 + n * 2 ^ 20 + a < 2 ^ 37 := by omega
  have h2 : paOff (0x10_0000 + n * 2 ^ 20 + a) = 0x10_0000 + n * 2 ^ 20 + a := Nat.mod_eq_of_lt h1
  rw [h]; unfold region; rw [h2, if_pos (by omega), if_pos (by omega)]
/-- See `wsk`: the hypotheses of the save, of its limit and of the hang limit. -/
theorem wit_SwitchSteps : wsk.rid = some 0 ∧ wsk.out = .saving 5 ∧ wsk.phase ≠ .ended ∧ wsk.release = 0 ∧ (∀ p ∈ wsk.pend, p.rq = true → p.st ≠ .wait ∧ p.st ≠ .xlat) ∧
    look [(0, 2)] wsk.lidx = some 2 ∧ (∀ a, a < 2 ^ 20 → region (wss.slotPa 2 + a) = .ordinary) ∧ (∀ b, (wsk.bank b).length = 256) ∧ wsk.running = none ∧
    5 + (wss.die 0).wdsave.toNat ≤ 5 + 0x10_0000 ∧ wss.tc < 5 + (wss.die 0).wdsave.toNat ∧ wsk.ctag ≠ 0 ∧ isNmv 0 = false ∧ wgk.phase = .run ∧ wgk.share = none ∧
    (wss.die 0).wdlimit.toNat ≠ 0 ∧ wgk.lastIssue + (wss.die 0).wdlimit.toNat ≤ 0x1_0000_0000 :=
  ⟨rfl, rfl, by decide, rfl, by decide +kernel, rfl, fun a h => wss_slot 2 a (by decide) h, fun b => List.length_replicate, rfl, by decide +kernel, by decide +kernel,
    by decide, by decide, rfl, rfl, by decide +kernel, by decide +kernel⟩
/-- SwitchSteps: a cluster to save, whose cores are out, and a context to restore. -/
theorem wit_SwitchSteps_more : let l := { wlaunch with state := .preempting, clusters := [0], slots := [(4096, 1), (4097, 2)] }
    let s : State := { wss with cores := [], launches := [(0, l)], clusters := [(0, { Cluster.reset with slices := [(0, ⟨.scratch, []⟩)] })] }
    let x : Saved := ⟨0, { wsk with out := .no }, false⟩
    let r : State := { wss with cores := [], launches := [(0, wlaunch)], saved := [(2, x)], mem := Memory.setNat [] (wss.slotPa 2) 8 1 }
    l.state = .preempting ∧ 0 ∈ l.clusters ∧ s.clusterOut 0 0 = true ∧ s.engs = [] ∧ ((l.clusterSlots 0).map Prod.snd).Nodup ∧ l.clusterSlots 0 = [(0, 1), (1, 2)] ∧
    (∀ n, n < 32 → ((s.cluster 0).slice n).fifo.length ≤ 6144) ∧ wlaunch.state = .placed ∧ r.saved = [(2, x)] ∧ x.k.rid = some 0 ∧
    r.mem.nat (r.slotPa 2) 1 = 1 ∧ x.k.mailbox.ents = [] := by
  and_intros <;> first | decide +kernel | rfl
/-- SwitchSteps: a context saved in slot 2, whose CHECK has been computed. -/
def wrest : State := { wss with cores := [], launches := [(0, wlaunch)], saved := [(2, ⟨0, { wsk with out := .no }, false⟩)], mem := Memory.setNat [] (wss.slotPa 2) 8 1 }
/-- See `wrest`. -/
theorem wit_SwitchSteps_restore : let r := wrest.slotSeal 2
    look r.launches 0 = some wlaunch ∧ r.saved = [(2, ⟨0, { wsk with out := .no }, false⟩)] ∧ (∀ a, a < 2 ^ 20 → region (r.slotPa 2 + a) = .ordinary) ∧
    r.slotOk 2 = true ∧ r.mem.nat (r.slotPa 2) 1 = 1 := by
  have h8 : region (wrest.slotPa 2 + 8) = .ordinary := by decide +kernel
  have hp : (wrest.slotSeal 2).slotPa 2 = wrest.slotPa 2 := by unfold State.slotSeal State.slotWrite; rw [if_pos h8]; rfl
  refine ⟨?_, ?_, ?_, State.slotOk_slotSeal _ _ h8, ?_⟩
  · unfold State.slotSeal State.slotWrite; rw [if_pos h8]; rfl
  · unfold State.slotSeal State.slotWrite; rw [if_pos h8]; rfl
  · intro a h; rw [hp]; exact wss_slot 2 a (by decide) h
  · rw [hp]; unfold Memory.nat
    have h := State.slotSeal_bytes wrest 2 0 1 (.inl (by decide))
    rw [Nat.add_zero] at h; rw [h]; decide +kernel

/-- RegisterSteps: rings of 256 records set up at 4,096, one with a record waiting, and message registers of Lane H. -/
def wrings (h n : Ring) : State := { wgs wgk with hxd := { Hxd.reset with laneH := h, laneN := n, regs := [(regKey 12 0, 8192), (regKey 12 8, 0x8000_0005)] } }
/-- See `wrings`. -/
theorem wit_RegisterSteps : let x : TRec := ⟨0x41, 2, 3, 4⟩
    let free : Ring := ⟨4096, 8, 255, 0, [x]⟩
    let full : Ring := ⟨4096, 8, 256, 0, [x]⟩
    let s := wrings free ⟨4096, 8, 0, 0, []⟩
    free.waiting = [x] ∧ free.full = false ∧ full.full = true ∧ (wrings ⟨4096, 8, 0, 0, []⟩ free).hxd.laneH.waiting = [] ∧ s.paHeld free.slotPa = false ∧ region free.slotPa = .ordinary ∧
    ((look ({ s.hxd with regs := [] } : Hxd).regs (iqCtl true)).getD 0).getLsbD 31 = false ∧ free.head = (255 : Word).setWidth 32 ∧ free.head ≠ (0 : Word).setWidth 32 ∧
    look s.hxd.regs (iqCtl true) = some 0x8000_0005 ∧ (0x8000_0005 : Word).getLsbD 31 = true ∧ s.mgmt.endpoint = false ∧ region (s.hxd.iqAddr true) = .ordinary := by
  and_intros <;> first | decide +kernel | rfl

/-- RegisterSteps: a window that passes every check and one that does not, ranges of dead granules, buckets to release, and writes. -/
theorem wit_RegisterSteps_more : let o : FWin := ⟨0, [4096, 8192]⟩
    let y : Bucket := { wbk with st := .done }
    (0x8000_0009 : BitVec 32).getLsbD 31 = true ∧ decTy ((0x8000_0009 : BitVec 32).toNat % 256) = some .fp32 ∧ ElemType.fp32 ∉ [ElemType.untyped, .t6, .mom8] ∧
    (0x8000_0009 : BitVec 32).toNat / 2 ^ 10 % 64 = 0 ∧ o.at 0 % 4096 = 0 ∧ o.at 0 < o.at 1 ∧ inOrdinary (o.at 0) (o.at 1 - o.at 0) = true ∧ 8 * (o.at 1 - o.at 0) % ElemType.fp32.width = 0 ∧
    ({ o with regs := [4097] } : FWin).at 0 % 4096 ≠ 0 ∧ inOrdinary (1 * 65536) (65536 * 2) = true ∧ paStack (1 * 65536) = 0 ∧ (wgs wgk).stackShut 0 = false ∧
    inOrdinary (0x13_F000 * 65536) (65536 * 1) = false ∧ look ((wbs y).stack 0).buckets 0 = some y ∧ (y.st = .done ∨ y.st = .failed ∨ y.st = .nonfinite) ∧ wbk.st = .open_ ∧
    ((wgs wgk).die 63).st = .live ∧ Block.arbiter ≠ .fwTable ∧ (4 ≠ 8 ∨ 0 % 8 ≠ 0) ∧
    ({ wgs wgk with mgmt := { Mgmt.reset with st := .tripped } } : State).mgmt.st = .tripped := by
  and_intros <;> first | decide +kernel | rfl

/-- StackSteps: thermal states, temperatures and times at their limits, closed banks, and a stack that resets. -/
theorem wit_StackSteps : let x : Stack := { Stack.reset with closed := [(48 * 3 + 5, 10)] }
    let s : State := { wgs wgk with stks := [(0, x)], tc := 514 }
    (s.stack 0).therm ≠ .selfref ∧ (s.stack 0).rowDead 3 5 9 = false ∧ look (s.stack 0).closed (3 * 48 + 4) = none ∧ look (s.stack 0).closed (3 * 48 + 5) = some 10 ∧ 10 + 504 ≤ s.tc ∧
    ({ s with tc := 513 } : State).tc < 10 + 504 ∧ (s.stack 0).therm = .normal ∧ ({ x with therm := .warm } : Stack).therm = .warm ∧ ({ x with therm := .draining } : Stack).therm = .draining ∧
    ({ x with therm := .selfref, srTc := 1 } : Stack).srTc + 1800000 ≤ 1800001 ∧ (s.stack 0).resetting = false ∧ (∀ id ∈ ([5, 9] : List Nat), look s.reqs id = none) ∧
    (∀ e ∈ (s.stack 0).buckets, e.2.tag = 0) ∧ rises s.reqs = true ∧ ({ x with resetting := true } : Stack).resetting = true := by
  and_intros <;> first | decide +kernel | rfl

/-- ContainSteps: sites of errors, and dies in each state of a fence. -/
theorem wit_ContainSteps : let s : State := { wgs wgk with launches := [], clusters := [(0, wcl)] }
    region 4096 = .ordinary ∧ paStack 4096 = 0 ∧ 4096 / 128 ∉ (s.stack 0).poison ∧ granule64 4096 ∉ (s.stack 0).deadG ∧ 4096 / 128 ∈ ({ Stack.reset with poison := [32] } : Stack).poison ∧
    ((s.cluster 0).slice (sliceOf 0x17F_FFFF)).mode = .scratch ∧ 0x17F_FFFF < 0x180_0000 ∧ 0x17F_FFFF / 128 ∉ (s.cluster 0).poison ∧ (s.core 0).phase ≠ .idle ∧ (s.core 0).phase ≠ .ended ∧
    (32767 : Nat) < 32768 ∧ (s.die 63).st = .live ∧ 2 ≤ ({ Die.reset with missed := 2 } : Die).missed ∧ ({ Die.reset with st := .held } : Die).st = .held ∧
    ({ Die.reset with st := .fencing } : Die).lost = false ∧ s.launches = [] ∧ ({ Die.reset with st := .fencing, lost := true, fences := 3 } : Die).fences < 4 ∧
    ({ Die.reset with st := .resetting } : Die).refused = [] ∧ ({ Die.reset with st := .resetting, fences := 2 } : Die).unheld = false ∧ ({ Die.reset with fences := 2 } : Die).fences < 3 ∧
    s.hxd.pkgFailed = false ∧ (255 : Nat) < 256 ∧ 7 ∈ ({ Die.reset with auditBad := [7] } : Die).auditBad := by
  and_intros <;> first | decide +kernel | rfl

/-- PortAndManagementSteps: ports, steps of the start, readings and voltages at their limits, and the commands of the mailbox. -/
theorem wit_PortAndManagementSteps : let p : Port := ⟨.training, 1, 9, true, 0, []⟩
    let s : State := { wgs wgk with hxd := { (wgs wgk).hxd with ports := [(63, p)], pkgid := 4 } }
    let m : Mgmt := { Mgmt.reset with cmd := 2 ^ 32 * 32 + 0x103, mbox := List.replicate 40 7 }
    (s.hxd.port 63).st = .training ∧ (9 : Nat) ≠ s.hxd.pkgid.toNat ∧ p.partner = 9 ∧ 4 = s.hxd.pkgid.toNat ∧ (p.recorded = true ∧ p.partner ≠ 8) ∧ (s.hxd.port 2).st ≠ .training ∧
    ({ p with st := .up } : Port).st = .up ∧ ({ Mgmt.reset with st := .starting 8 } : Mgmt).st = .starting 8 ∧ ({ Mgmt.reset with st := .starting 1 } : Mgmt).st = .starting 1 ∧
    (4599 < 4600 ∨ 6000 < 4599) ∧ (4600 ≤ 4600 ∧ 4600 < 4800) ∧ (4800 ≤ 5800 ∧ 5800 ≤ 5800) ∧
    (5801 : Nat) ≤ 6000 ∧ (m.cmdOf false).toNat % 256 = 3 ∧ (m.cmdOf false).toNat / 256 % 4 = 1 ∧ (m.cmdOf true).toNat / 256 % 4 ≠ 1 ∧
    ((m.bufOf false).take ((m.cmdOf false).toNat / 2 ^ 32 % 8192)).length = 32 ∧
    (let b : Mgmt := { m with connCmd := 0x101, connFirst := true }; (b.cmdOf true).toNat / 256 % 4 = 1 ∧ b.connFirst = true ∧ ¬ ((b.cmdOf true).toNat / 256 % 4 ≠ 1 ∨ b.connFirst = false)) ∧
    ({ m with cmd := 0x101 } : Mgmt).cmd.toNat / 2 ^ 32 % 8192 ≤ 4096 ∧ ({ m with cmd := 0x102 } : Mgmt).cmd.toNat % 256 = 2 ∧ m.minVersion ≤ 0 ∧ (m.cmdOf true).toNat % 256 ≠ 1 ∧ m.busy true = false ∧ m.busy false = true ∧
    ({ m with connCmd := 0x101 } : Mgmt).connCmd.toNat % 256 = 1 ∧ (2 : Nat) < ({ m with minVersion := 3 } : Mgmt).minVersion ∧
    ({ m with cmd := 2 ^ 32 * 31 + 0x103 } : Mgmt).cmd.toNat / 2 ^ 32 % 8192 ≠ 32 := by
  and_intros <;> first | decide +kernel | rfl

/-- PortAndManagementSteps: an UPWRITE that passes the limit of 64 MiB, by the length of the slot's image. -/
theorem wit_PortAndManagementSteps_limit : 67108864 < (List.replicate 67108864 (0 : Byte) ++ [1]).length := by
  rw [List.length_append, List.length_replicate]; decide

/-- MemoryLaws: an untagged write, a tagged one whose cell is there, and one that finds its quota used. -/
theorem wit_MemoryLaws : let bs : List Byte := [1, 2]
    let s : State := { wgs wgk with stks := [(0, { Stack.reset with cells := [(cellKey 5 4, List.replicate 1024 1)] })]
                                    hxd := { (wgs wgk).hxd with tags := [(5, ⟨.live, 1, 0, 1, 1⟩)] } }
    (5118 : Nat) < 2 ^ 42 ∧ 5118 % 1024 + bs.length ≤ 1024 ∧ (5 : Nat) ≠ 4095 ∧ ((s.tag 5).st = .live ∨ (s.tag 5).st = .held) ∧ (∀ e ∈ (s.stack (paStack 5118)).cells, e.2.length = 1024) ∧
    (s.cell 5 5118).isSome = true ∧ s.cell 5 8192 = none ∧ (s.tag 5).quota ≠ 0 ∧ (s.stack (paStack 8192)).cellsOf 5 = (s.tag 5).quota := by
  and_intros <;> first | decide +kernel | rfl

/-- EncodeDecodeRoundTrip: one instruction of each slot at the ends of its fields. -/
theorem wit_EncodeDecodeRoundTrip : ([(0, .loopImm 0x1FFF 0xFFF), (1, .li ⟨.a, 63, true⟩ 0x3FFFF), (2, .lih ⟨⟨.b, 0, false⟩, .latch 7, 0⟩),
    (3, .vfma ⟨⟨.a, 15, 2047, true⟩, .fp16, .rdn, .reg 2047 true, .latch 7⟩), (4, .pnot .b 15 15 true 15), (5, .mmal ⟨63, 63, 124, .t6, true, true, some 63, 63⟩),
    (6, .gst ⟨.v 2047, 63, true, 0, false, 0xFFFFF⟩), (7, .gth 63 63 63 63 63)] : List (Nat × Instr)).all (fun e => slotOf e.2 == some e.1 && e.2.wf) = true := by decide +kernel

/-- StepOutcomes: the head of an agenda of each kind, a turn with a step owed, a core that has the turn, and TC that does not stand still. -/
theorem wit_StepOutcomes : (slotOf .exit).isSome = true ∧ slotOf (.dieFence 68 1) = none ∧ placeOk (.dieFence 68 1) = false ∧ placeOk (.dieFence 67 1) = true ∧
    ({ wrs with turn := true, inflight := [.placementPass] } : State).inflight = .placementPass :: [] ∧ State.reset.active = [] ∧
    wrs.cur ∈ wrs.active ∧ State.reset.mgmt.tcStill = false ∧ (∀ e ∈ State.reset.saved, e.2.mailDue = false) ∧ ({ Mgmt.reset with st := .starting 3 } : Mgmt).tcStill = true := by
  and_intros <;> first | decide +kernel | rfl

/-! ### More witnesses: both cores of a pair, requests in flight, and the limits that the clauses name -/

/-- SystemRegisters, FrameWords: a pair's core in kernel code and in the monitor, an unpaired one, and a destination that is none. -/
theorem wit_Registers_paired : (ws 0 { wk with paired := true }).me.paired = true ∧ (ws 0 { wk with paired := true }).me.mon = none ∧
    (ws 0 { wk with paired := true, mon := some wm }).me.mon.isSome = true ∧ wk.paired = false ∧ (sh.d ≠ 0 ∧ sh.wbs = false) ∧ (0 : BitVec 6) = 0 := by
  and_intros <;> first | decide +kernel | rfl

/-- StepRunsTheBundle: no load waits for room, and a paired core and an NMV core meet the premises on them. -/
theorem wit_StepRunsTheBundle_premises : wb.loadWaitsPage wb.cur = false ∧ wb.me.paired = false ∧ wb.me.nmv = false ∧ (ws 0 { wk with paired := true }).reqs = [] ∧
    ((ws 2048 { wk with nmv := true }).stack (nmvStack 2048)).therm ≠ .selfref ∧ (ws 2048 { wk with nmv := true }).stackShut (nmvStack 2048) = false := by
  and_intros <;> first | decide +kernel | rfl

/-- WaitConditions: a counter that came to hold while its core slept, and one in ordinary memory. -/
theorem wit_WaitConditions_came : ((ws 0 { wk with waitCame := true }).core 0).waitCame = true ∧ (((wg wk).counterAt ((wg wk).freeIx 1) 4096).posted = true) ∧
    (((wg wk).counterAt ((wg wk).freeIx 1) 4096).target : Int) ≤ ((wg wk).counterAt ((wg wk).freeIx 1) 4096).count.toInt ∧ region 4096 = .ordinary := by
  and_intros <;> first | decide +kernel | rfl

/-- ScratchStores: a FIFO slice under the whole of a vector store, with stride 4. -/
theorem wit_ScratchStores_fifo : let s : State := { wls with clusters := [(0, { Cluster.reset with slices := [(31, ⟨.fifo, []⟩)] })] }
    (s.fifoAt (0x17F_FF80 : Word).toNat).isSome = true ∧ wlanes.all (fun x => s.fifoAt x.toNat == s.fifoAt (0x17F_FF80 : Word).toNat) = true := by
  decide +kernel

/-- MemorySteps: a load of a line that may be held, with no older one; a store that meets a full stack. -/
theorem wit_MemorySteps_load : let s := wrq (.load true) 4096 8
    let r := wreq (.load true) 4096 8
    s.olderLoad 3 r 4096 = false ∧ s.guestable r.core r.tag 4096 = false ∧ s.guestable r.core r.tag (2 ^ 37 + 4096) = true ∧ (s.readPa 3 r.tag 4096 8 r.zero).all (fun x => !x.2) = true ∧
    (s.readPa 3 r.tag 4096 128 r.zero).all (fun x => !x.2) = true := by
  and_intros <;> first | decide +kernel | rfl

/-- MemorySteps: stores with no older one to the same bytes, written and turned away, and the outside. -/
theorem wit_MemorySteps_outside : let s := wrq (.store false) 4096 8
    let f : State := { s with hxd := { s.hxd with tags := [(5, ⟨.live, 1, 0, 1, 1⟩)] }, stks := [(0, { Stack.reset with cells := [(cellKey 5 9, List.replicate 1024 1)] })] }
    s.olderStore 3 (wreq (.store false) 4096 8) = false ∧ s.matPoison 0 4096 false = none ∧
    (match s.write 0 0 4096 false [1, 2] with | .ok _ => true | .error _ => false) = true ∧ f.matPoison 5 4096 false = none ∧
    (match f.write 5 5 4096 false [1, 2] with | .ok _ => false | .error _ => true) = true ∧ s.mgmt.endpoint = false ∧
    (match s.iommuWalk 4096 with | .held => false | _ => true) = true ∧ s.iommuLeaf 4096 = some ⟨0, 2 ^ 40, 0, true, true⟩ ∧
    ({ wreq (.store true) 4096 8 with core := 4096 } : Req).core = 4096 ∧ (wreq (.store true) 4096 8).core ≠ 4096 ∧
    ({ s with saved := [(2, ⟨0, wgk, false⟩)], cores := [] } : State).ctxAt 0 (some 0) = .saved 2 := by
  and_intros <;> first | decide +kernel | rfl

/-- TranslationSteps: a walk that a shut stack holds, new contents with and without a root, an access under way in a range and none. -/
theorem wit_TranslationSteps_walk : let s : State := { wgs wgk with iommu := [], roots := [(0, ⟨4096, true, false⟩)], stks := [(0, { Stack.reset with therm := .draining })] }
    (match s.iommuWalk 4096 with | .held => true | _ => false) = true ∧ (wgs wgk).xlatedIn 4096 64 = false ∧
    ({ wrq (.store false) 4096 8 with inflight := [.globalWriteRequest (.core 3)] } : State).xlatedIn 4096 64 = true ∧
    (wreq (.store false) 4096 8).gen = (State.reset.tag 0).gen := by
  and_intros <;> first | decide +kernel | rfl

/-- SignalSteps: no older signal, and a counter one short of its target with a core asleep on it. -/
theorem wit_SignalSteps_wakes : let s : State := { wrq (.carrive 1 8) 4096 16 with
      mem := (Memory.setNat [] 4096 8 2).setNat 4104 8 (2 ^ 63 + 3), cores := [(0, { wgk with phase := .sleep (.ctr 4096 (some 4096) 0) })] }
    s.olderSignal 3 (wreq (.carrive 1 8) 4096 16) = false ∧ (s.counter 4096).posted = true ∧ (s.counter 4096).count = 2 ∧ (s.counter 4096).target = 3 ∧
    (s.core 0).phase = .sleep (.ctr 4096 (some 4096) 0) := by
  and_intros <;> first | decide +kernel | rfl

/-- CoreStalls: a stitch point of a bundle with EXIT and of one without, no cause pending, and a bundle with no drain after its wait. -/
theorem wit_CoreStalls_exit : ((wdk (fun k => { k with exiting := true })).core 0).exiting = true ∧ ((wdk id).core 0).exiting = false ∧
    ((wdk id).core 0).after = false ∧ ((wdk id).core 0).causes = [] := by
  and_intros <;> first | decide +kernel | rfl

/-- EngineSteps: matched requests that wait for no room, and a source whose address is translated untagged. -/
theorem wit_EngineSteps_free : (wes wcopy).unmatched wcopy.core wcopy.rid wcopy.iss = false ∧ (wes wcopy).submitHeld 7 = false ∧ wcopy.srcScr = false ∧
    (wcopy.srcAt (4096 : Word).toNat).1 = 0 ∧ wcopy.wins = [] ∧ wcopy.eng = 0 ∧ (0x15 : Nat) ∈ [1, 2, 3, 4, 5, 6, 7, 0x11, 0x12, 0x13, 0x14, 0x15] ∧
    (let k := dieCell (coreDie wcopy.core)
     (wes wcopy).stackShut k = false ∧ (wes wcopy).xlate (.rbd k) wcopy.src.toNat (wcopy.srcAt wcopy.src.toNat).1 .read = .ok 4096) := by
  and_intros <;> first | decide +kernel | rfl

/-- LaunchRun: an image that is aligned, slices that may switch at once, no launch to evict, and a core with no follower. -/
theorem wit_LaunchRun_start : let l := { wla with state := .placing, header := whdr, recd := parseRec (wmem.bytes 0x13000 256) }
    l.recd.image.toNat % 64 = 0 ∧ (wls2 l).sliceInitQuiet l = true ∧ l.evict = none ∧ look (wls2 l).followers 0 = none ∧ l.state = .placing ∧
    l.resume = false := by
  and_intros <;> first | decide +kernel | rfl

/-- TagSteps: a request of a tag whose relation no longer holds, a page request that a FREE tag may leave, a tag killed with its descendant. -/
theorem wit_TagSteps_relations : let r : Req := { wreq (.tagnew 5 9) 0 0 with owner := 6 }
    let s : State := { wtg with reqs := [(3, r)] }
    s.tagDead r.owner = false ∧ r.owner ≠ 0 ∧ s.within 5 r.owner = false ∧ s.descends 16 5 r.owner = false ∧ wtg.within 6 5 = true ∧
    s.ctxAt r.core r.rid = .running ∧ (ReqK.page false (.core 0) .core).isPage = true ∧ look wtg.hxd.tags 6 = some ⟨.live, 2, 5, 0, 1⟩ ∧
    wtg.descends 16 6 5 = true ∧ (s.core 0).exiting = false ∧ .tagDrain 1 3 ∈ ({ wtg with inflight := [.tagDrain 1 3] } : State).inflight := by
  and_intros <;> first | decide +kernel | rfl

/-- BucketSteps: what the declaration, the share, the push and the contribution find open. -/
theorem wit_BucketSteps_open : let s := wbs wbk
    (s.core 0).exiting = false ∧ s.vaHeld (.core 0) 0 4096 64 = false ∧ (0x12000 : Word).toNat % 64 = 0 ∧ s.tagDead wbk.atag = false ∧
    (wes wcopy).unmatched 0 (some 0) 50 = false ∧ (wes wcopy).vaHeld (.copy 0) 0 4096 64 = false ∧ s.paHeld 4096 = false ∧ region 4096 = .ordinary ∧
    { wreq .bkdef 4096 64 with done := true }.done = true ∧ (0 : Nat) + 256 ≤ ({ s with tc := 256 } : State).tc ∧ s.tc < 0 + 256 := by
  and_intros <;> first | decide +kernel | rfl

/-- MonitorFreezes: no end test of a loop due and no result that differs on a follower. -/
theorem wit_MonitorFreezes_quiet : (wfs.core 0).loopDue = false ∧ (wfs.core 0).pairBad = none := by
  and_intros <;> first | decide +kernel | rfl

/-- SwitchSteps: slots in banks that are open, no request that fills the cluster, a core whose pair has no follower, and results that wait
for no page. -/
theorem wit_SwitchSteps_open : wss.paHeld (wss.slotPa 2) = false ∧ wss.slotsHeld [1, 2] = false ∧ wss.fillsCluster 0 0 = false ∧ look wss.followers (partner 0) = none ∧
    wsk.pend = [] ∧ wss.reqs = [] ∧ { wsk with paired := true }.paired = true := by
  and_intros <;> first | decide +kernel | rfl

/-- RegisterSteps: a write to a die that is fenced, of a size that no block takes, and misaligned ones. -/
theorem wit_RegisterSteps_sizes : let s : State := { wgs wgk with dies := [(3, { Die.reset with st := .resetting })] }
    (s.die 3).st ≠ .live ∧ s.mgmt.st ≠ .running ∧ (3 : Nat) ∉ [1, 2, 4, 8] ∧ 4 % 8 ≠ 0 ∧ (Block.rbd ≠ .fwTable ∧ Block.rbd ≠ .spt ∧ Block.rbd ≠ .mgmt ∧ 4 ≠ 8) ∧
    Block.rbd ≠ .launchPort ∧ (s.die 63).st = .live := by
  and_intros <;> first | decide +kernel | rfl

/-- StackSteps: a row whose counter has reached the threshold, one below it, and a stack that resets with nothing lost. -/
theorem wit_StackSteps_rows : let x : Stack := { Stack.reset with rows := [(9 * 2 ^ 16 + (3 * 48 + 4), 4096)] }
    x.threshold ≤ (look x.rows (9 * 2 ^ 16 + (3 * 48 + 4))).getD 0 ∧ (look x.rows (10 * 2 ^ 16 + (3 * 48 + 4))).getD 0 < x.threshold ∧
    rises (wgs wgk).engs = true ∧ (∀ id ∈ ([5, 9] : List Nat), look (wgs wgk).engs id = none) ∧ x.resetting = false := by
  and_intros <;> first | decide +kernel | rfl

/-- ContainSteps: heartbeats and audits at their intervals and before them, a die whose fence holds it and one whose does not. -/
theorem wit_ContainSteps_intervals : let s : State := { wgs wgk with tc := 2 ^ 28 }
    look s.followers 0 = none ∧ (0 : Nat) + 65536 ≤ s.tc ∧ (wgs wgk).tc < 0 + 65536 ∧ s.hxd.auditTc + 2 ^ s.hxd.auditLog2 ≤ s.tc ∧
    (wgs wgk).tc < (wgs wgk).hxd.auditTc + 2 ^ (wgs wgk).hxd.auditLog2 ∧ s.withholds ⟨63, 7, 15, true, 65535⟩ = false ∧
    ({ Die.reset with st := .resetting, fences := 3, unheld := true } : Die).unheld = true ∧ ({ Die.reset with st := .resetting } : Die).unheld = false := by
  and_intros <;> first | decide +kernel | rfl

/-- PortAndManagementSteps: a clock step whose time has come, and before it. -/
theorem wit_PortAndManagementSteps_clock : (wgs wgk).tc < (wgs wgk).mgmt.clockTc + 1800000 ∧
    ({ wgs wgk with tc := 1800000 } : State).mgmt.clockTc + 1800000 ≤ 1800000 := by
  and_intros <;> first | decide +kernel | rfl

/-- RegisterReads: for each kind a register that is spoiled, one that is pending, one that is dead, and latches spoiled, written and stale. -/
theorem wit_RegisterReads_kinds : (∀ c ∈ [codeS 1, codeV 1, codeP 1, codeF 1, codeK 1], c ∈ { wk with bad := [c] }.bad ∧ c ∉ wk.bad ∧ c ∈ { wk with dead := [c] }.dead) ∧
    (∀ d ∈ [Dest.s 1, .v 1, .p 1, .f 1], { wk with strict := true, pend := [wp d] }.pendingReg (d.code.getD 0) = true ∧ { wk with strict := true }.pendingReg (d.code.getD 0) = false) ∧
    (7 : Nat) ∉ { wk with stale := [] }.stale ∧ (7 : Nat) ∈ { wk with stale := [7] }.stale := by
  and_intros <;> first | decide +kernel | rfl

/-- ScalarReadOuts: a compute core with a launch, the last one, and an NMV core. -/
theorem wit_ScalarReadOuts_places : (wgs wgk).cur < 2048 ∧ (wgs wgk).me.rid = some 0 ∧ look (wgs wgk).launches 0 = some wlaunch ∧ (ws 2047 wk).cur < 2048 ∧ 2048 ≤ (ws 2559 wk).cur := by
  and_intros <;> first | decide +kernel | rfl

/-- ScratchLoads, ScratchStores, GlobalAccess, WaitsAndSums: an address and a stride that are not aligned, an offset beyond spill memory, a full
return queue, an NMV core, and an index of no row and past the sums. -/
theorem wit_Memory_traps : wls.rdS 49 (5 : BitVec 6).toNat = .ok 0x17F_FFF9 ∧ wls.rdS 50 (5 : BitVec 6).toNat = .ok 0x17F_FFF9 ∧
    (0x17F_FFF9 : Word).toNat % 4 ≠ 0 ∧ (0x17F_FFF9 : Word).toNat % 2 ^ (1 : BitVec 2).toNat ≠ 0 ∧ (0x17F_FFF9 : Word).toNat % 128 ≠ 0 ∧ (0x17F_FFF8 : Word).toNat % 4 = 0 ∧
    wls.rdV 51 (1 : BitVec 11).toNat = .ok 7 ∧ wls.rdP 52 (1 : BitVec 4).toNat = .ok 5 ∧ wls.rdSV 49 (.v 1) = .ok 7 ∧ 0x6000 < (0x5FF9 : BitVec 15).toNat + 8 ∧
    (¬ RqRoom { wk with pend := List.replicate 40 { wp (.s 1) with rq := true } }) ∧ isNmv wns.cur = true ∧ wns.rdS 51 (2 : BitVec 6).toNat = .ok 0 ∧
    ((33 : Word).toNat % 2 ^ 20 % 32 ≠ 0 ∧ wbk.count ≤ (64 : Word).toNat % 2 ^ 20) ∧ wrs.me.share = none ∧
    ({ wgs wgk with roots := [] } : State).xlate (engOf 0) (2 ^ 63) 0 .gacc = .fault .noncanon := by
  and_intros <;> first | decide +kernel | rfl | (unfold RqRoom; decide +kernel)

/-- EngineRequests, StitchingInstructions: a full gather queue, a descriptor outside spill memory, one of 0 rows and one of no slots, a sleeve that holds
fewer rows than named, a tag that is no descendant, a slice with entries, a cluster not covered, and a handle of another bucket. -/
theorem wit_Requests_traps : 16 ≤ ({ wgs wak with engs := (List.range 16).map (fun i => (i, weng (.gather 0 8) 3)) } : State).engsOf 0 [3] ∧
    ¬ ((0x5FC0 : Word).toNat < 0x5FC0 ∧ (0x5FC0 : Word).toNat % 64 = 0) ∧ (64 : Word).toNat / 128 ∉ wak.badSpill ∧ wak.spill.nat ((64 : Word).toNat + 0) 4 = 0 ∧
    wak.spill.nat ((64 : Word).toNat + 0x1C) 2 = 0 ∧ 4 - 1 < (4 : Word).toNat % 8192 ∧ (wgs wtk).descends 16 ((7 : Word).toNat % 4096) wtk.ctag.toNat = false ∧
    (let cl : Cluster := { Cluster.reset with slices := [(6, ⟨.fifo, [⟨5, false, 1, 0, 0⟩]⟩)] }
     (64 : Word).getLsbD 6 = true ∧ (cl.slice 6).mode = .fifo ∧ (cl.slice 6).fifo ≠ [] ∧ ∀ j, j < 6 → (64 : Word).getLsbD j = false) ∧
    { wlaunch with recd := { wlaunch.recd with rect := 0 } }.covers 0 = false ∧ (1 : Word).toNat ≠ 2 ^ 27 * 0 + 0 ∧ (65 : Word).toNat % 64 ≠ 0 := by
  and_intros <;> first | decide +kernel | rfl

/-- SignalIssue: objects that are not aligned and tagged ones, targets inside and outside the launch, and sub-rectangles at its size and past it. -/
theorem wit_SignalIssue_scopes : (65 : Word).toNat % 64 ≠ 0 ∧ (65 : Word).toNat % 8 ≠ 0 ∧ (0x2_0000 : Word).toNat % 64 = 0 ∧ inWindow ((wgs wgk).windowsOf wgk) (0x2_0000 : Word).toNat ≠ none ∧
    isNmv wns.cur = true ∧ coreAt (1 % 32) (1 / 2 ^ 16 % 64) ∈ wlaunch.cores ∧ coreAt (2 % 32) (2 / 2 ^ 16 % 64) ∉ wlaunch.cores ∧
    (2 ^ (1 : BitVec 3).toNat ≤ wlaunch.recd.width ∧ 2 ^ (1 : BitVec 3).toNat ≤ wlaunch.recd.height) ∧ wlaunch.recd.width < 2 ^ (2 : BitVec 3).toNat ∧
    { wgk with paired := true }.paired = true ∧ Scope.core ≠ .launch := by
  and_intros <;> first | decide +kernel | rfl

/-- The package started, as the steps of the host find it. -/
def wup (s : State) : State := { s with mgmt := { s.mgmt with st := .running } }

/-- LaunchPort, RegisterSteps, MemorySteps: the host reaches the package, and not before; a module with a connector and one without. -/
theorem wit_HostUp : (wup (wgs wgk)).hostUp = true ∧ (wup (wgs wgk)).mgmt.st = .running ∧ (wgs wgk).mgmt.st ≠ .running ∧ (wgs wgk).mgmt.md = true ∧
    ((wup (wgs wgk)).die 63).st = .live ∧ (wup (wgs wgk)).saved = [] ∧ ((wup { wgs wgk with dies := [(3, { Die.reset with st := .resetting })] }).die 3).st ≠ .live ∧
    ({ Mgmt.reset with md := false } : Mgmt).md = false ∧ (wup (wgs wgk)).mgmt.endpoint = false ∧ (3 : Nat) ∉ (wgs wgk).mgmt.pcieDown ∧ canonical 4096 = true ∧
    (wup (wgs wgk)).iommuWalk 4096 ≠ .held ∧ (wup (wgs wgk)).iommuLeaf 4096 = some ⟨0, 2 ^ 40, 0, true, true⟩ := by
  and_intros <;> first | decide +kernel | rfl

/-- MemorySteps, EngineSteps, BucketSteps: no saved context, and one that waits for no counter. -/
theorem wit_NoSavedWaits : NoSavedWaits (wgs wgk) ∧ NoSavedWaits { wgs wgk with saved := [(2, ⟨0, wgk, false⟩)] } := by
  refine ⟨fun e h => (List.not_mem_nil h).elim, fun e h => ?_⟩
  have h2 : e = (2, ⟨0, wgk, false⟩) := by simpa using (show e ∈ [(2, (⟨0, wgk, false⟩ : Saved))] from h)
  subst h2; exact ⟨by decide, fun _ _ _ h => by cases h⟩

/-- MatrixIssue, Accumulators: an engine held by an operation behind one that has released it. -/
theorem wit_MatrixIssue_behind : let a : MxOp := ⟨5, 4, 1, 0, mm 4 .t8 none 0, 0, 0, 0, [], 0, none, 0, none⟩
    let k : Core := { wmk with mx := [a, { a with iss := 13 }] }
    k.mx = [a] ++ { a with iss := 13 } :: [] ∧ (∀ e ∈ [a], e.iss + 8 * e.steps ≤ k.ic) ∧ k.ic < 13 + 8 * 1 := by
  and_intros <;> first | decide +kernel | rfl

/-- WaitsAndSums: the row of sums is taken by its stack for reading and for writing, the bucket is the share's, and another is not. -/
theorem wit_WaitsAndSums_free : wns.paHeld (wbk.sumPa 32) (4 * Nat.min 32 (wbk.count - 32)) wbk.tag wbk.zero false = false ∧
    wns.paHeld (wbk.sumPa 32) (4 * Nat.min 32 (wbk.count - 32)) wbk.tag wbk.zero true = false ∧ wbk.tag = 0 ∧ wbk.base.toNat % 128 = 0 ∧
    wbk.ident = (⟨0, 0, 0, 0, 2, 0, 16, false, 0, []⟩ : Share).ident ∧ wbk.ident ≠ (⟨0, 0, 1, 0, 2, 0, 16, false, 0, []⟩ : Share).ident := by
  and_intros <;> first | decide +kernel | rfl

/-- MemorySteps: a store that brings the counter to hold on which a core sleeps. -/
theorem wit_MemorySteps_came : let s : State := { wrq (.store false) 4096 8 with
      mem := (Memory.setNat [] 4096 8 2).setNat 4104 8 (2 ^ 63 + 3), cores := [(0, { wgk with phase := .sleep (.ctr 4096 (some 4096) 0) })] }
    (s.core 0).phase = .sleep (.ctr 4096 (some 4096) 0) ∧ 4096 % 8 = 0 ∧ 4096 < 4096 + 16 ∧ (s.counter 4096).holds = false ∧ s.paHeld 4096 8 0 false true = false ∧
    (match exec (.globalWriteRequest (.core 3)) s with | .next t => (t.counter 4096).holds && (t.core 0).waitCame | _ => false) = true := by
  and_intros <;> first | decide +kernel | rfl

/-- TranslationSteps: a walk that ends in a leaf of its table, and answers that read no table. -/
theorem wit_TranslationSteps_used : let s : State := { wgs wgk with roots := [(0, ⟨4096, true, false⟩)], mem := Memory.setNat [] 4096 8 0x17 }
    (s.iommuPath 0).1.getLast? = some 4096 ∧ s.iommuWalk 0 = .leaf ⟨0, 2 ^ 48, 0, true, true⟩ ∧ ((wgs wgk).iommuPath 4096).1 = [] ∧
    (wgs wgk).iommuWalk 4096 ≠ .held ∧ (∀ l, ({ s with mem := [] } : State).iommuWalk 0 ≠ .leaf l) ∧
    ({ s with roots := [(0, ⟨4096, false, true⟩)] } : State).iommuWalk 0 = .none := by
  and_intros <;> first | decide +kernel | rfl | (intro l h; cases h)

/-- SignalSteps: an event whose cycle has matched, with no older one to its target. -/
theorem wit_SignalSteps_event : let r := wreq (.event [0] 1) 0 0
    let s := wrq (.event [0] 1) 0 0
    r.left = true ∧ s.olderEvent 0 3 r = false ∧ s.reqs = [(3, r)] ∧ (s.die (coreDie 0)).st = .live ∧ s.ctxAt 0 r.rid = .running := by
  and_intros <;> first | decide +kernel | rfl

/-- CoreStalls: no cycle that differs, and no SLMODE of a lower core in the same cycle. -/
theorem wit_CoreStalls_switch : let s := wdk (fun k => { k with op := some (.switch 6 .fifo 0 0) })
    (s.core 0).mismatched = false ∧ s.slmodeBefore 0 0 = false ∧ (s.core 0).op = some (.switch 6 .fifo 0 0) ∧ (s.core 0).exiting = false := by
  and_intros <;> first | decide +kernel | rfl

/-- EngineSteps: scratch and memory that no step holds up. -/
theorem wit_EngineSteps_held : (∀ zero, (wes wcopy).paHeld 4096 128 0 zero = false) ∧ (wes wcopy).paHeld 4096 128 0 false true = false := by decide +kernel

/-- LaunchRun: a DONEJCB that is poison, and launches that stop failed and cancelled. -/
theorem wit_LaunchRun_ends : let l := { wlaunch with state := .stopping true, jdone := some 4096 }
    let s := wjcb 0 { wls2 l with cores := [(0, { wgk with phase := .ended })] }
    ({ wls2 wlaunch with stks := [(0, { Stack.reset with poison := [32] })] } : State).cellPoisoned 0 4096 64 false = true ∧
    ({ wls2 wlaunch with stks := [(0, { Stack.reset with poison := [32] })] } : State).paHeld 4096 = false ∧ l.state = .stopping true ∧
    ({ l with state := .stopping false } : Launch).state = .stopping false ∧ (∀ c ∈ l.leads, (s.core c).rid = some 0 → (s.core c).phase = .ended) ∧ l.jdone = some 4096 ∧
    s.paHeld 4096 = false ∧ s.cellPoisoned 0 4096 64 false = false ∧ s.jcbState 4096 = .open_ ∧ (∀ e ∈ s.launches, e.2.state ≠ .waiting) := by
  and_intros <;> first | decide +kernel | rfl

/-- BucketSteps: slots counted already in each order, staged or applied, and a contribution that is not finite. -/
theorem wit_BucketSteps_counted : let y : Bucket := { wbk with chunks := [(0, ⟨2, [], [1], [], 2, false⟩)] }
    let z : Contrib := ⟨1, 7, 0, none, 0, 0, true, none⟩
    1 < (y.chunk 0).next ∧ 1 ∈ (y.chunk 0).bitmap ∧ z ∈ (({ wbk with chunks := [(0, ⟨0, [z], [], [], 0, false⟩)] } : Bucket).chunk 0).staged ∧ z.slot = 1 ∧
    (y.st = .open_ ∧ ({ y with st := .failed } : Bucket).st = .failed ∧ ({ y with st := .nonfinite } : Bucket).st = .nonfinite) ∧
    (0 = (wbk.chunk 0).next ∧ anyNonFinite (({ wbk with fp32 := true } : Bucket).inputs 0 0x7F80_0000) = true ∧ wbk.jcb = none) := by
  and_intros <;> first | decide +kernel | rfl

/-- BucketSteps, TREE: a first node, and the last contribution, whose nodes merge into one of finite sums. -/
theorem wit_BucketSteps_tree : let y : Bucket := { wbk with order := .tree }
    let n := y.inputs 0 7
    let l : Bucket := { y with chunks := [(0, ⟨3, [], [], [(0, n), (1, n)], 3, false⟩)] }
    (y.order = .tree ∧ (y.chunk 0).staged = [] ∧ (y.chunk 0).napplied + 1 < y.contrib ∧ anyNonFinite n = false ∧ (treePush 0 n (y.chunk 0).stack).2.2 = false) ∧
    3 = (l.chunk 0).next ∧ 3 + 1 = l.contrib ∧ (match treePush 0 n (l.chunk 0).stack with
      | ((lv, top) :: rest, _, bad) => decide (lv = 2 ∧ rest = [] ∧ bad = false ∧ (treeFold top rest).2.2 = false ∧ (treeFold top rest).1.length = l.chunkLen 0 ∧
          ∀ i, i < l.chunkLen 0 → (dec .fp32 (addLane 0 ((treeFold top rest).1.getD i 0)).1.toNat).nonFinite = false)
      | _ => false) = true := by
  and_intros <;> first | decide +kernel | rfl

/-- BucketSteps, SLOT: the next slot with another staged behind it, whose sums are finite, and a sum that is not. -/
theorem wit_BucketSteps_slot : let z : Contrib := ⟨1, 7, 0, none, 0, 0, true, none⟩
    let y : Bucket := { wbk with chunks := [(0, ⟨0, [z], [], [], 0, false⟩)] }
    (y.order = .slot ∧ (y.chunk 0).staged = [z] ∧ z.slot = 0 + 1 ∧ 0 = (y.chunk 0).next ∧ 0 + 1 < y.contrib) ∧
    (∀ i, i < y.chunkLen 0 → (dec .fp32 (addLane 0 ((y.inputs 0 7).getD i 0)).1.toNat).nonFinite = false ∧
      (dec .fp32 (addLane (addLane 0 ((y.inputs 0 7).getD i 0)).1 ((y.inputs 0 z.data).getD i 0)).1.toNat).nonFinite = false) ∧
    (dec .fp32 (addLane 0x7F7F_FFFF 0x7F7F_FFFF).1.toNat).nonFinite = true ∧ (wbk.chunk 0).staged = [] := by
  and_intros <;> first | decide +kernel | rfl

/-- BucketSteps: a push answered with a fault while its share runs, and the descriptor of a BKDEF as its core reads it. -/
theorem wit_BucketSteps_answers : let e := { weng (.push 9 0 0 0) 4 with src := 4096, stack := 64 }
    let m := (((Memory.setNat [] 4096 8 8192).setNat 4104 4 40).setNat 4108 2 4).setNat (4096 + 0x22) 1 2
    let s : State := { wrq .bkdef 4096 64 with mem := m, stks := [], cores := [(0, { wgk with ctag := 0, op := some (.answer 3 7) })] }
    look (wes e).engs 7 = some e ∧ (0x11 : Nat) ≠ 0x10 ∧ (wes e).ctxAt e.core e.rid = .running ∧ e.page = none ∧ e.eng = 4 ∧
    (match s.readVa (.core 0) 3 0 false 4096 64 with | .data ps => decide (s.descBytes (wreq .bkdef 4096 64) ps = m.bytes 4096 64) | _ => false) = true ∧
    s.vaHeld (.core 0) 0 4096 64 false = false := by
  and_intros <;> first | decide +kernel | rfl

/-- MonitorFreezes: a context of a launch with no monitor on its die, one result in flight beside one of the return queue, and a share of a
running bucket. -/
theorem wit_MonitorFreezes_more : let k : Core := { wfk with pend := [wp (.v 3), { wp (.s 1) with rq := true }] }
    let b : Bucket := { wbk with st := .running }
    let n : State := { ws 2048 wnk with stks := [(0, { Stack.reset with buckets := [(0, b)] })] }
    ((wgs wfk).core 0).rid = some 0 ∧ look (wgs wfk).launches 0 = some wlaunch ∧ ((wgs wfk).die (coreDie 0)).monitor = none ∧ wfk.share = none ∧ wfk.phase ≠ .ended ∧
    (k.pend.filter (fun q => !q.rq) = [wp (.v 3)] ∧ (wp (.v 3)).st = .ready ∧ k.ic ≤ (wp (.v 3)).due ∧ (wp (.v 3)).due < k.ic + 40 ∧
      (k.pend.filter (fun q => q.rq)).length ≤ 40 ∧ k.loops.length ≤ 6 ∧ k.ras.length ≤ 8 ∧ k.mon = none) ∧
    n.cur = 2048 ∧ isNmv 2048 = true ∧ (n.core 2048).mon = none ∧ (n.core 2048).share = some ⟨0, 0, 0, 0, 2, 0, 16, false, 0, []⟩ ∧ look (n.stack 0).buckets 0 = some b ∧
    b.st = .running ∧ b.ident = 0 ∧ b.jcb = none := by
  and_intros <;> first | decide +kernel | rfl

/-- RewindRestores: a window of 20 R380 step 3, tag 0, and a pair that disagrees. -/
theorem wit_RewindRestores_escalates : let k := { wrk with ctag := 0, window := true }
    ({ wrk with rewound := true, paired := true } : Core).paired = true ∧ k.window = true ∧ k.ctag = 0 ∧ k.share = none ∧ wrk.shadow.pos < 2 ^ 20 ∧ k.rid = some 0 ∧
    look (wgs k).launches 0 = some wlaunch ∧ (∃ p ∈ k.pend, (∃ pa, p.st = .poison pa) ∧ p.due ≤ k.ic) := by
  refine ⟨rfl, rfl, rfl, rfl, by decide +kernel, rfl, rfl, ⟨{ wp (.s 1) with st := .poison 4096, due := 20 }, ?_, ⟨4096, rfl⟩, by decide⟩⟩
  exact List.mem_singleton.mpr rfl

/-- StackSteps: rows 0 and 1 at the threshold. -/
theorem wit_StackSteps_low : let x : Stack := { Stack.reset with rows := [(3 * 48 + 4, 4096), (2 ^ 16 + (3 * 48 + 4), 4096)] }
    x.threshold ≤ (look x.rows (0 * 2 ^ 16 + (3 * 48 + 4))).getD 0 ∧ x.threshold ≤ (look x.rows (1 * 2 ^ 16 + (3 * 48 + 4))).getD 0 ∧ look x.closed (3 * 48 + 4) = none := by
  decide +kernel

/-- PortAndManagementSteps: what a valid sample shows of each kind of die, one that is not valid, a start that failed once, and voltages of a
module with and without their sensor. -/
theorem wit_PortAndManagementSteps_samples : let hot : Word := 2 ^ 16 + 115
    let m : Mgmt := { Mgmt.reset with sensors := [(63, hot), (64, hot), (95, hot), (96, hot), (100, hot), (1, 115), (2, 2 ^ 16 + 114)], fails := [(startKey, 1)] }
    (∀ n ∈ [63, 69, 100, 64, 68], ((look m.sensors (if n < 64 then n else if n < 68 then n + 32 else if n = 68 then 100 else n - 5)).getD 0).toNat / 65536 % 2 = 1 ∧
      115 ≤ ((look m.sensors (if n < 64 then n else if n < 68 then n + 32 else if n = 68 then 100 else n - 5)).getD 0).toNat % 65536) ∧
    ((look m.sensors 1).getD 0).toNat / 65536 % 2 = 0 ∧ ((look m.sensors 2).getD 0).toNat % 65536 < 115 ∧ m.failsOf startKey = 1 ∧ m.md = true ∧
    (4599 < 4600 ∨ 6000 < 4599) ∧ (4600 ≤ 4799 ∧ 4799 < 4800) ∧ (101 : Nat) ≤ 101 ∧ (102 : Nat) < 103 := by
  and_intros <;> first | decide +kernel | rfl

/-- MemoryStaysCanonical: a state whose memories have their form and that takes a step. -/
theorem wit_MemoryStaysCanonical : MemOk wb ∧ ∃ t, step wb = .next t := by
  refine ⟨⟨rfl, ?_, fun e h => ?_, fun e h => ?_, fun e h => ?_⟩, ⟨_, rfl⟩⟩
  · intro e h
    have h2 : e = (0, wk.fetchReady 0) := by simpa using (show e ∈ [(0, wk.fetchReady 0)] from h)
    subst h2; exact ⟨rfl, rfl⟩
  · exact (List.not_mem_nil (a := e) (show e ∈ [] from h)).elim
  · exact (List.not_mem_nil (a := e) (show e ∈ [] from h)).elim
  · exact (List.not_mem_nil (a := e) (show e ∈ [] from h)).elim

end Sys2Proof.Tests
end

section
/-! PROOFS. Scalar and branch slots: the words that the operations of two scalar sources give, what a slot of two sources answers, and what
the branch slot leaves in its core. -/

namespace Sys2Proof.Machine

/-! ### The words of the two-source operations (08 R167, R169) -/

/-- The sum of two words is their sum as numbers, taken in 64 bits. -/
theorem add_eq_ofNat (a b : Word) : a + b = BitVec.ofNat 64 (a.toNat + b.toNat) := by
  simp [BitVec.ofNat_add]

/-- The difference of two words is their difference as integers, taken in 64 bits. -/
theorem sub_eq_ofInt (a b : Word) : a - b = BitVec.ofInt 64 (a.toInt - b.toInt) := by
  rw [Int.sub_eq_add_neg, BitVec.ofInt_add, BitVec.ofInt_neg, BitVec.ofInt_toInt, BitVec.ofInt_toInt, BitVec.sub_eq_add_neg]

/-- A sum whose second term is shifted left (ADDSH). -/
theorem add_shiftLeft_eq_ofNat (a b : Word) (n : Nat) : a + b <<< n = BitVec.ofNat 64 (a.toNat + b.toNat * 2 ^ n) := by
  rw [BitVec.ofNat_add, BitVec.ofNat_toNat, BitVec.setWidth_eq, ← Nat.shiftLeft_eq]
  rfl

/-- Bits [63:0] of the product. -/
theorem mul_eq_ofNat (a b : Word) : a * b = BitVec.ofNat 64 (a.toNat * b.toNat) := by
  simp [BitVec.ofNat_mul]

/-- The product of two words extended with their signs does not wrap in 128 bits. -/
theorem toInt_signExtend_mul (a b : Word) : (a.signExtend 128 * b.signExtend 128).toInt = a.toInt * b.toInt := by
  have hle : a.toInt * b.toInt ≤ 2 ^ 126 := BitVec.toInt_mul_toInt_le
  have hge : -2 ^ 126 ≤ a.toInt * b.toInt := BitVec.le_toInt_mul_toInt
  rw [BitVec.toInt_mul, BitVec.toInt_signExtend_of_le (by decide), BitVec.toInt_signExtend_of_le (by decide)]
  exact Int.bmod_eq_of_le (by omega) (by omega)

/-- The upper half of 128 bits is the integer they hold, divided by 2^64 and rounded down. -/
theorem extractHigh_eq_ofInt (p : BitVec 128) : p.extractLsb' 64 64 = BitVec.ofInt 64 (p.toInt / 2 ^ 64) := by
  apply BitVec.eq_of_toNat_eq
  rw [BitVec.extractLsb'_toNat, BitVec.toNat_ofInt, Nat.shiftRight_eq_div_pow, BitVec.toInt_eq_toNat_cond]
  split <;> omega

/-- Bits [127:64] of the signed product (MULH). -/
theorem mulHigh_eq_ofInt (a b : Word) : mulHigh a b = BitVec.ofInt 64 (a.toInt * b.toInt / 2 ^ 64) := by
  rw [mulHigh, extractHigh_eq_ofInt, toInt_signExtend_mul]

/-- Bits [127:64] of the unsigned product (MULHN), which does not wrap in 128 bits. -/
theorem mulHighN_eq_ofNat (a b : Word) : mulHighN a b = BitVec.ofNat 64 (a.toNat * b.toNat / 2 ^ 64) := by
  have hlt : a.toNat * b.toNat < 2 ^ 128 :=
    Nat.lt_of_lt_of_eq (Nat.mul_lt_mul'' a.isLt b.isLt) (Nat.pow_add 2 64 64).symm
  have hp : (a.setWidth 128 * b.setWidth 128).toNat = a.toNat * b.toNat := by
    rw [BitVec.toNat_mul, BitVec.toNat_setWidth_of_le (by decide), BitVec.toNat_setWidth_of_le (by decide), Nat.mod_eq_of_lt hlt]
  rw [mulHighN, BitVec.extractLsb', hp, Nat.shiftRight_eq_div_pow]

/-- A choice by the signed order, the other way round. -/
theorem ite_slt_eq_ite_toInt_le {α : Type} (a b : Word) (x y : α) : (if a.slt b then x else y) = if b.toInt ≤ a.toInt then y else x := by
  simp only [BitVec.slt_iff_toInt_lt, ← Int.not_le, ite_not]

/-- A choice by the unsigned order, the other way round. -/
theorem ite_ult_eq_ite_toNat_le {α : Type} (a b : Word) (x y : α) : (if a.ult b then x else y) = if b.toNat ≤ a.toNat then y else x := by
  simp only [BitVec.ult_iff_toNat_lt, ← Nat.not_le, ite_not]

/-! ### A slot of two scalar sources -/

/-- The effect of a slot of two scalar sources that are read: it queues its result and the marks of its sources. -/
theorem sBin_of_rdS2 {o : SOp2} {s : State} {a b : Word} (h : s.rdS2 o = .ok (a, b)) (lat : Nat) (f : Word → Word → Word) :
    sBin o lat f s = .ok (s.giveS o.toSHead lat (sDying o.a ++ sDying o.b) (f a b)) := by
  rw [sBin, h]; rfl

/-- What an instruction whose effect is `sBin` of f answers, where f gives x for its sources. -/
theorem exec_of_sBin {i : Instr} {o : SOp2} {s : State} {a b x : Word} {lat : Nat} (f : Word → Word → Word) (hslot : (slotOf i).isSome = true)
    (heff : slotEff i s = sBin o lat f s) (h : s.rdS2 o = .ok (a, b)) (hx : f a b = x) :
    exec i s = .next (s.giveS o.toSHead lat (sDying o.a ++ sDying o.b) x) :=
  exec_ok i s _ hslot (by rw [heff, sBin_of_rdS2 h, hx])

/-- Settles O2: every operation is `sBin` of a function of two words, whose value is the lemma above about that operation. -/
theorem scalarTwoSources : Obligations.ScalarTwoSources := by
  intro o s a b h
  refine ⟨?add, ?sub, fun sh => ?addsh, ?and, ?or, ?xor, ?andn, ?min, ?max, ?minn, ?maxn, ?mul, ?mulh, ?mulhn⟩
  case add => exact exec_of_sBin (· + ·) rfl rfl h (add_eq_ofNat a b)
  case sub => exact exec_of_sBin (· - ·) rfl rfl h (sub_eq_ofInt a b)
  case addsh => exact exec_of_sBin (fun a b => a + b <<< sh.toNat) rfl rfl h (add_shiftLeft_eq_ofNat a b sh.toNat)
  case and => exact exec_of_sBin (· &&& ·) rfl rfl h rfl
  case or => exact exec_of_sBin (· ||| ·) rfl rfl h rfl
  case xor => exact exec_of_sBin (· ^^^ ·) rfl rfl h rfl
  case andn => exact exec_of_sBin (fun a b => a &&& ~~~b) rfl rfl h rfl
  case min => exact exec_of_sBin (fun a b => if b.slt a then b else a) rfl rfl h (ite_slt_eq_ite_toInt_le b a b a)
  case max => exact exec_of_sBin (fun a b => if a.slt b then b else a) rfl rfl h (ite_slt_eq_ite_toInt_le a b b a)
  case minn => exact exec_of_sBin (fun a b => if b.ult a then b else a) rfl rfl h (ite_ult_eq_ite_toNat_le b a b a)
  case maxn => exact exec_of_sBin (fun a b => if a.ult b then b else a) rfl rfl h (ite_ult_eq_ite_toNat_le a b b a)
  case mul => exact exec_of_sBin (· * ·) rfl rfl h (mul_eq_ofNat a b)
  case mulh => exact exec_of_sBin mulHigh rfl rfl h (mulHigh_eq_ofInt a b)
  case mulhn => exact exec_of_sBin mulHighN rfl rfl h (mulHighN_eq_ofNat a b)

/-! ### The branch slot (08 R155 to R166) -/

@[simp] theorem State.setBr_cur (s : State) (b : BrAct) : (s.setBr b).cur = s.cur := rfl
@[simp] theorem State.setBr_me (s : State) (b : BrAct) : (s.setBr b).me = { s.me with br := b } := State.me_upMe s _

/-- The end of a bundle whose branch slot asked for b alone. -/
theorem afterBranch_setBr (s : State) (b : BrAct) (h n : Nat) (x : Code) :
    afterBranch (s.setBr b) h n x = (s.setBr b).endBranch s.cur h n x b := by
  rw [afterBranch, State.setBr_me, State.setBr_cur]

/-- TRAP ends its bundle at the next position, with the cause SWTRAP added (08 R165). -/
theorem afterBranch_trap_me (s : State) (code : BitVec 16) (h n : Nat) (x : Code) :
    (afterBranch (s.setBr (.trap code)) h n x).me =
      { s.me with br := .trap code, causes := s.me.causes ++ [.swtrap code], pos := n, loopDue := true } := by
  have hcore : (s.setBr (.trap code)).core s.cur = { s.me with br := .trap code } := State.setBr_me s _
  rw [afterBranch_setBr, State.endBranch, State.me]
  simp only [State.upCore_cur, State.setBr_cur, State.core_upCore_same, hcore]

/-- The address check of an aligned object outside the tagged windows passes (16 R311). -/
theorem objectCheck_ok {s : State} {a : Word} {n : Nat} (halign : a.toNat % n = 0) (htag : s.inTagged s.me a.toNat = false) :
    objectCheck s a n = .ok () := by
  simp [objectCheck, halign, htag]

/-- An object that is not aligned traps ILLOP with its address (16 R311). -/
theorem objectCheck_misaligned {s : State} {a : Word} {n : Nat} (halign : a.toNat % n ≠ 0) : objectCheck s a n = .error (.trap ⟨.illop, 0x700, a⟩) :=
  if_pos halign

/-- EXIT with no bank held (08 R160). -/
theorem exec_exit_of_no_banks {s : State} (h : s.me.alloc = []) : exec .exit s = .next (s.setBr .exit) :=
  exec_ok _ _ _ rfl (show effExit s = _ by simp [effExit, h])

/-- EXIT with banks held traps with their number (08 R160). -/
theorem exec_exit_of_banks {s : State} (h : s.me.alloc ≠ []) :
    exec .exit s = .next (takeTrap s ⟨.acchold, BitVec.ofNat 32 s.me.alloc.length, 0⟩ none) :=
  exec_trap _ _ _ rfl (show effExit s = _ by simp [effExit, h, trapD])

/-- WAITT waits for the TC that its register holds (08 R162). -/
theorem exec_waitt {s : State} {r : BitVec 6} {v : Word} (h : s.rdS 1 r.toNat = .ok v) :
    exec (.waitt r) s = .next (s.setBr (.wait (.tc v))) :=
  exec_ok _ _ _ rfl (show effWaitt r s = _ by simp only [effWaitt, h])

/-- WAITE with a register waits for the events of bits [15:0] (08 R163). -/
theorem exec_waiteReg {s : State} {r : BitVec 6} {v : Word} (h : s.rdS 1 r.toNat = .ok v) :
    exec (.waiteReg r) s = .next (s.setBr (.wait (.ev (v.setWidth 16)))) :=
  exec_ok _ _ _ rfl (show effWaiteReg r s = _ by simp only [effWaiteReg, h])

/-- WAITC on an aligned counter outside the windows that translates waits for the counter there (08 R164). -/
theorem exec_waitc_of_translates {s : State} {fd : BitVec 3} {r : BitVec 6} {a : Word} {pa : Nat} (h : s.rdS 1 r.toNat = .ok a)
    (halign : a.toNat % 8 = 0) (htag : s.inTagged s.me a.toNat = false) (hpa : s.xlate (engOf s.cur) a.toNat 0 .read = .ok pa) :
    exec (.waitc fd r) s = .next (s.setBr (.wait (.ctr a (some pa) fd))) :=
  exec_ok _ _ _ rfl (show effWaitc fd r s = _ by simp only [effWaitc, h, objectCheck_ok halign htag, hpa])

/-- WAITC on a counter that is not aligned traps (08 R164, 16 R311). -/
theorem exec_waitc_misaligned {s : State} {fd : BitVec 3} {r : BitVec 6} {a : Word} (h : s.rdS 1 r.toNat = .ok a) (halign : a.toNat % 8 ≠ 0) :
    exec (.waitc fd r) s = .next (takeTrap s ⟨.illop, 0x700, a⟩ none) :=
  exec_trap _ _ _ rfl (show effWaitc fd r s = _ by simp only [effWaitc, h, objectCheck_misaligned halign])

/-- TRAP in kernel code leaves its cause to the end of its bundle (08 R165). -/
theorem exec_trapInstr_of_kernel {s : State} (h : s.me.mon = none) (code : BitVec 16) : exec (.trap code) s = .next (s.setBr (.trap code)) :=
  exec_ok _ _ _ rfl (show effTrap code s = _ by simp [effTrap, h])

/-- TRAP in the monitor traps at its issue (18 R351). -/
theorem exec_trapInstr_of_monitor {s : State} (h : s.me.mon.isSome = true) (code : BitVec 16) :
    exec (.trap code) s = .next (takeTrap s ⟨.swtrap, BitVec.ofNat 32 code.toNat, 0⟩ none) :=
  exec_trap _ _ _ rfl (show effTrap code s = _ by simp [effTrap, h, trapD])

/-- RETT and HALT in the monitor are taken at the end of their bundle (08 R166, 18 R351). -/
theorem exec_rett_halt_of_monitor {s : State} (h : s.me.mon.isSome = true) :
    exec .rett s = .next (s.setBr .rett) ∧ exec .halt s = .next (s.setBr .halt) :=
  ⟨exec_ok _ _ _ rfl (if_pos h), exec_ok _ _ _ rfl (if_pos h)⟩

/-- RETT and HALT in kernel code trap ILLOP (08 R166, 18 R351). -/
theorem exec_rett_halt_of_kernel {s : State} (h : s.me.mon = none) :
    exec .rett s = .next (takeTrap s ⟨.illop, 0x0D, 0⟩ none) ∧ exec .halt s = .next (takeTrap s ⟨.illop, 0x0E, 0⟩ none) := by
  have hmon : ¬ s.me.mon.isSome = true := by simp [h]
  exact ⟨exec_trap _ _ _ rfl (if_neg hmon), exec_trap _ _ _ rfl (if_neg hmon)⟩

/-- Settles O14: each instruction by its lemma above, and the end of a bundle with TRAP by `afterBranch_trap_me`. -/
theorem taskControl : Obligations.TaskControl := by
  intro s h n x
  refine ⟨exec_exit_of_no_banks, exec_exit_of_banks, fun r v => exec_waitt, fun m => rfl, fun r v => exec_waiteReg,
    fun fd r a pa => exec_waitc_of_translates, fun fd r a => exec_waitc_misaligned, fun code hmon => ?_,
    fun code hmon => exec_trapInstr_of_monitor hmon code, exec_rett_halt_of_monitor, exec_rett_halt_of_kernel⟩
  have hme := afterBranch_trap_me s code h n x
  exact ⟨s.setBr (.trap code), exec_trapInstr_of_kernel hmon code, by rw [hme], by rw [hme]⟩

end Sys2Proof.Machine
end

section
/-! PROOFS. Vector slots: what a slot of one, two or three vector sources answers, and with it the integer and logic operations (09 R195 to
R197) and the conversions, random words and moment codes (09 R187 to R194). -/

namespace Sys2Proof.Machine

/-! ### A slot of vector sources -/

/-- The first of two vector sources, with the lane predicate. -/
theorem Reads2.reads1 {s : State} {h : VHead} {a b : VSrc} {x y : Vec} {p : BitVec 32} (hr : Reads2 s h a b x y p) : Reads1 s h a x p := by
  obtain ⟨hx, _, hp⟩ := hr
  exact ⟨hx, hp⟩

/-- The effect of a slot of one vector source that is read. -/
theorem vUn_of_reads1 {s : State} {h : VHead} {a : VSrc} {x : Vec} {p : BitVec 32} (hr : Reads1 s h a x p) (lat w : Nat)
    (f : Vec → Nat → Nat × Flags) :
    vUn h lat a w f s = .ok (s.giveV h lat (vDying a) (mapElems w p (s.oldV (vIx h.side) h.d.toNat) (f x))) := by
  obtain ⟨hx, hp⟩ := hr
  rw [vUn, hx, hp]; rfl

/-- The effect of a slot of two vector sources that are read. -/
theorem vBin_of_reads2 {s : State} {h : VHead} {a b : VSrc} {x y : Vec} {p : BitVec 32} (hr : Reads2 s h a b x y p) (lat w : Nat)
    (f : Vec → Vec → Nat → Nat × Flags) :
    vBin h lat a b w f s = .ok (s.giveV h lat (vDying a ++ vDying b) (mapElems w p (s.oldV (vIx h.side) h.d.toNat) (f x y))) := by
  obtain ⟨hx, hy, hp⟩ := hr
  rw [vBin, hx, hy, hp]; rfl

/-- The effect of a slot of two vector sources and the destination that are read: the disabled lanes keep the destination as it was read. -/
theorem vTri_of_reads2 {s : State} {h : VHead} {a b : VSrc} {d x y : Vec} {p : BitVec 32} (hd : s.rdV (vIx h.side) h.d.toNat = .ok d)
    (hr : Reads2 s h a b x y p) (lat w : Nat) (f : Vec → Vec → Vec → Nat → Nat × Flags) :
    vTri h lat a b w f s = .ok (s.giveV h lat (vDying a ++ vDying b) (mapElems w p d (f d x y))) := by
  obtain ⟨hx, hy, hp⟩ := hr
  rw [vTri, hd, hx, hy, hp]; rfl

section
variable {i : Instr} {s : State} {h : VHead} {a b : VSrc} {d x y : Vec} {p : BitVec 32} {lat w : Nat} {g : Nat → Nat × Flags}

/-- What an instruction whose effect is `vUn` of f answers, where f gives the elements g for its source. -/
theorem exec_of_vUn (f : Vec → Nat → Nat × Flags) (hslot : (slotOf i).isSome = true) (heff : slotEff i s = vUn h lat a w f s)
    (hr : Reads1 s h a x p) (hg : ∀ j, f x j = g j) :
    exec i s = vGives s h lat w (vDying a) p (s.oldV (vIx h.side) h.d.toNat) g :=
  exec_ok i s _ hslot (by rw [heff, vUn_of_reads1 hr, funext hg])

/-- What an instruction whose effect is `vBin` of f answers, where f gives the elements g for its sources. -/
theorem exec_of_vBin (f : Vec → Vec → Nat → Nat × Flags) (hslot : (slotOf i).isSome = true) (heff : slotEff i s = vBin h lat a b w f s)
    (hr : Reads2 s h a b x y p) (hg : ∀ j, f x y j = g j) :
    exec i s = vGives s h lat w (vDying a ++ vDying b) p (s.oldV (vIx h.side) h.d.toNat) g :=
  exec_ok i s _ hslot (by rw [heff, vBin_of_reads2 hr, funext hg])

/-- What an instruction whose effect is `vTri` of f answers, where f gives the elements g for its sources and destination. -/
theorem exec_of_vTri (f : Vec → Vec → Vec → Nat → Nat × Flags) (hslot : (slotOf i).isSome = true) (heff : slotEff i s = vTri h lat a b w f s)
    (hd : s.rdV (vIx h.side) h.d.toNat = .ok d) (hr : Reads2 s h a b x y p) (hg : ∀ j, f d x y j = g j) :
    exec i s = vGives s h lat w (vDying a ++ vDying b) p d g :=
  exec_ok i s _ hslot (by rw [heff, vTri_of_reads2 hd hr, funext hg])

end

/-! ### Integer and logic (09 R195 to R197) -/

/-- An element of a vector read as an integer: with its sign for the signed types, as it stands for the others. -/
theorem intOf_elemAt (t : ElemType) (z : Vec) (i : Nat) :
    intOf t (elemAt t.width z i) = if t.signed then sx (elemAt t.width z i) t.width else (elemAt t.width z i : Int) := by
  have hmod : elemAt t.width z i % 2 ^ t.width = elemAt t.width z i := Nat.mod_mod _ _
  rw [intOf, hmod]

/-- VIMIN's pick keeps the first element unless the second is less (09 R197). -/
theorem pickInt_lesser (t : ElemType) (a b : Nat) : pickInt t false a b = if intOf t a ≤ intOf t b then a else b := by
  simp only [pickInt, Bool.false_eq_true, ↓reduceIte, decide_eq_true_eq, ← Int.not_le, ite_not]

/-- VIMAX's pick keeps the first element unless the second is greater (09 R197). -/
theorem pickInt_greater (t : ElemType) (a b : Nat) : pickInt t true a b = if intOf t b ≤ intOf t a then a else b := by
  simp only [pickInt, ↓reduceIte, decide_eq_true_eq, ← Int.not_le, ite_not]

/-- Settles O20: each operation is `vBin` or `vTri` of its exact value, the elements read by `intOf_elemAt` and the value narrowed by its
variant. -/
theorem vectorInteger : Obligations.VectorInteger := by
  intro o v s x y d p hr t w el narrow gives old
  have hel : ∀ z i, intOf t (elemAt w z i) = el z i := intOf_elemAt t
  have hnarrow : ∀ n, narrowInt t v n = narrow n := by
    intro n
    cases v with
    | wrap => rfl
    | sat => rfl
    | hi => rfl
  refine ⟨?viadd, ?visub, ?vimul, fun hd => ?vimac, ?vimin, ?vimax⟩
  case viadd => exact exec_of_vBin _ rfl rfl hr fun i => by rw [hnarrow, hel, hel]
  case visub => exact exec_of_vBin _ rfl rfl hr fun i => by rw [hnarrow, hel, hel]
  case vimul => exact exec_of_vBin _ rfl rfl hr fun i => by rw [hnarrow, hel, hel]
  case vimac => exact exec_of_vTri _ rfl rfl hd hr fun i => by rw [hnarrow, hel, hel, hel]
  case vimin => exact exec_of_vBin _ rfl rfl hr fun i => by rw [pickInt_lesser, hel, hel]
  case vimax => exact exec_of_vBin _ rfl rfl hr fun i => by rw [pickInt_greater, hel, hel]

/-- What a shift of f by a scalar amount answers (09 R196). -/
theorem exec_of_vShift_scal {i : Instr} {h : VHead} {ty : ElemType} {a : VSrc} {c : SSrc} {s : State} {x : Vec} {n : Word} {p : BitVec 32}
    (f : Nat → Nat → Nat) (hslot : (slotOf i).isSome = true) (heff : slotEff i s = vShift ⟨h, ty, a⟩ (.scal c) f s) (hr : Reads1 s h a x p)
    (hn : s.rdSSrc (vIx h.side + 2) c = .ok n) :
    exec i s = vGives s h 2 ty.width (vDying a ++ sDying c) p (s.oldV (vIx h.side) h.d.toNat)
      (fun j => (f (elemAt ty.width x j) (n.toNat % ty.width), 0)) := by
  obtain ⟨hx, hp⟩ := hr
  exact exec_ok i s _ hslot (by rw [heff, vShift, hx, hn, hp]; rfl)

/-- Settles O21: the bitwise operations and the shifts by a vector are `vBin` of a function of two elements, and the shifts by a scalar are
`exec_of_vShift_scal`. -/
theorem vectorLogicShift : Obligations.VectorLogicShift := by
  intro h ty a b c s x y n p hr w old logic shift o shl shr shra
  refine ⟨?vand, ?vor, ?vxor, ?byVector, fun hn => ?byScalar⟩
  case vand => exact exec_of_vBin _ rfl rfl hr fun _ => rfl
  case vor => exact exec_of_vBin _ rfl rfl hr fun _ => rfl
  case vxor => exact exec_of_vBin _ rfl rfl hr fun _ => rfl
  case byVector =>
    exact ⟨exec_of_vBin _ rfl rfl hr fun _ => rfl, exec_of_vBin _ rfl rfl hr fun _ => rfl, exec_of_vBin _ rfl rfl hr fun _ => rfl⟩
  case byScalar =>
    exact ⟨exec_of_vShift_scal shl rfl rfl hr.reads1 hn, exec_of_vShift_scal shr rfl rfl hr.reads1 hn,
      exec_of_vShift_scal shra rfl rfl hr.reads1 hn⟩

/-! ### Conversion, random words and moment codes (09 R187 to R194) -/

/-- VSRND rounds each lane under the random word of its index (09 R191). -/
theorem exec_vsrnd {h : VHead} {ty : ElemType} {a : VSrc} {c : SSrc} {s : State} {x : Vec} {n : Word} {p : BitVec 32} (hr : Reads1 s h a x p)
    (hn : s.rdSSrc (vIx h.side + 2) c = .ok n) :
    exec (.vsrnd ⟨h, ty, a, c⟩) s = vGives s h 4 32 (vDying a ++ sDying c) p (s.oldV (vIx h.side) h.d.toNat)
      (fun l => srndElem ty (s.me.mixAt (n.toNat + l)) (elemAt 32 x l)) := by
  obtain ⟨hx, hp⟩ := hr
  exact exec_ok _ s _ rfl (show effVsrnd ⟨h, ty, a, c⟩ s = _ by rw [effVsrnd, hx, hn, hp]; rfl)

/-- VRAND writes the random word of each lane's index (09 R192). -/
theorem exec_vrand {h : VHead} {c : SSrc} {s : State} {n : Word} {p : BitVec 32} (hp : s.rdP (vIx h.side + 3) h.p.toNat = .ok p)
    (hn : s.rdSSrc (vIx h.side + 1) c = .ok n) :
    exec (.vrand h c) s = vGives s h 4 32 (sDying c) p (s.oldV (vIx h.side) h.d.toNat) (fun l => (s.me.mixAt (n.toNat + l), 0)) :=
  exec_ok _ s _ rfl (show effVrand h c s = _ by rw [effVrand, hn, hp]; rfl)

/-- VAMAX writes one value to every enabled lane: the greatest magnitude of its mask, or the scale byte of it (09 R189). -/
theorem exec_vamax {h : VHead} {ty : ElemType} {a : VSrc} {abs : Bool} {pm : BitVec 4} {s : State} {x : Vec} {m p : BitVec 32}
    (hr : Reads1 s h a x p) (hm : s.rdP (vIx h.side + 2) pm.toNat = .ok m) :
    exec (.vamax ⟨h, ty, a⟩ abs pm) s = vGives s h 4 32 (vDying a) p (s.oldV (vIx h.side) h.d.toNat)
      (fun _ => if abs then (amaxBits x m, nfOf .fp32 (amaxBits x m)) else (scaleByte ty (dec .fp32 (amaxBits x m)), 0)) := by
  obtain ⟨hx, hp⟩ := hr
  exact exec_ok _ s _ rfl (show effVamax ⟨h, ty, a⟩ abs pm s = _ by rw [effVamax, hx, hm, hp]; rfl)

/-- A valid code table passes its check (09 R193). -/
theorem Core.tableCheck_of_valid {k : Core} (hct : k.ctValid = true) : k.tableCheck = .ok () := if_pos hct

/-- Without a valid code table the check traps ILLOP, with the first index that failed or for a table never loaded (09 R193). -/
theorem Core.tableCheck_of_invalid {k : Core} (hct : k.ctValid = false) :
    k.tableCheck = .error (.trap ⟨.illop, BitVec.ofNat 32 (if k.ctFail = 0 then 0x200 else 0x100 + (k.ctFail - 1)), 0⟩) :=
  if_neg (by simp [hct])

/-- With a valid code table VMOMQ is a slot of two sources (09 R194). -/
theorem effVmomq_of_table {h : VHead} {a b : VSrc} {s : State} (hct : s.me.ctValid = true) :
    effVmomq h a b s = vBin h 4 a b 32 (fun x y l => momCode s.me (elemAt 32 x l) (elemAt 32 y l)) s := by
  rw [effVmomq, Core.tableCheck_of_valid hct]; rfl

/-- With a valid code table VMOMD is a slot of two sources (09 R194). -/
theorem effVmomd_of_table {h : VHead} {m : RMode} {a b : VSrc} {s : State} (hct : s.me.ctValid = true) :
    effVmomd h m a b s = vBin h 4 a b 32
      (fun x y l => roundArith .fp32 m ((dec .fp32 (s.me.ctEntry (elemAt 32 x l % 256))).mul (dec .fp32 (elemAt 32 y l)))) s := by
  rw [effVmomd, Core.tableCheck_of_valid hct]; rfl

/-- Without a valid code table VMOMQ and VMOMD trap once their sources are read (09 R193). -/
theorem exec_vmom_of_no_table {h : VHead} {m : RMode} {a b : VSrc} {s : State} {x y : Vec} {p : BitVec 32} (hr : Reads2 s h a b x y p)
    (hct : s.me.ctValid = false) :
    let t : TrapInfo := ⟨.illop, BitVec.ofNat 32 (if s.me.ctFail = 0 then 0x200 else 0x100 + (s.me.ctFail - 1)), 0⟩
    exec (.vmomq h a b) s = .next (takeTrap s t none) ∧ exec (.vmomd h m a b) s = .next (takeTrap s t none) := by
  obtain ⟨hx, hy, hp⟩ := hr
  have hcheck := Core.tableCheck_of_invalid hct
  exact ⟨exec_trap _ s _ rfl (show effVmomq h a b s = _ by rw [effVmomq, hx, hy, hp, hcheck]; rfl),
    exec_trap _ s _ rfl (show effVmomd h m a b s = _ by rw [effVmomd, hx, hy, hp, hcheck]; rfl)⟩

/-- Settles O22: VCVT is `vUn`, VQNT, VDQNT and, with a table, VMOMQ and VMOMD are `vBin` of a function of the elements; the others, and the
trap without a table, are the lemmas above. -/
theorem vectorConvert : Obligations.VectorConvert := by
  intro o src c pm abs s x y n m p hr old marks w
  obtain ⟨_, hp⟩ := hr.reads1
  refine ⟨?vcvt, ?vqnt, ?vdqnt, exec_vsrnd hr.reads1, exec_vrand hp, exec_vamax hr.reads1, fun hct => ⟨?vmomq, ?vmomd⟩,
    exec_vmom_of_no_table hr⟩
  case vcvt => exact exec_of_vUn _ rfl rfl hr.reads1 fun _ => rfl
  case vqnt => exact exec_of_vBin _ rfl rfl hr fun _ => rfl
  case vdqnt => exact exec_of_vBin _ rfl rfl hr fun _ => rfl
  case vmomq => exact exec_of_vBin _ rfl (effVmomq_of_table hct) hr fun _ => rfl
  case vmomd => exact exec_of_vBin _ rfl (effVmomd_of_table hct) hr fun _ => rfl

end Sys2Proof.Machine
end
